-- ==== Sys2Proof/Word.lean ====
section
/-! DEFINITION. The words of the part: bytes on the link and in frames, and sets of the 80 pin
columns of one pin row. -/

namespace Sys2Proof

/-- A byte of the link, or one cell byte of a frame: bit k is dot k + 1 (00, Cells, dots and pins). -/
abbrev Byte := BitVec 8

/-- The 80 pins of one pin row, bit c standing for pin column c (the RAW row layout of R4). A set bit
is UP in an image of positions, and membership in a set of columns (R184). -/
abbrev PinRow := BitVec 80

end Sys2Proof
end

