-- ==== Sys2Proof/Syntax.lean ====
section
/-! DEFINITION. The commands and events of the part: one constructor per row of the opcode table. -/

namespace Sys2Proof

/-- What a command frame carries beside its command code (R184): the tag, the declared payload length and
the payload bytes that were clocked in. -/
structure CommandBody where
  tag : Byte
  declared : BitVec 16
  payload : List Byte
  deriving DecidableEq, Repr

/-- The rows of the opcode table. A row named after a link command is the event in which the buffered
frame of that command is taken or refused by its owner (R181); its operand is that frame without the
code. -/
inductive Instr where
  /-- R181: a WRITE COMMAND transaction ends. `shown` is the link status byte that the transaction shifted
  out when chip select fell, `bytes` the bytes clocked in after the transaction code. -/
  | writeCommand (shown : Byte) (bytes : List Byte)
  /-- R180, R183: a READ RESPONSE transaction, with `clocked` bytes clocked out after the status byte. With none it
  is a transaction of the status byte alone, and takes nothing. -/
  | readResponse (clocked : Nat)
  /-- R180, R186: a READ NOTICE transaction, with `clocked` bytes clocked out after the status byte. With none it is a
  transaction of the status byte alone, and takes nothing. -/
  | readNotice (clocked : Nat)
  /-- R180: a transaction of the status byte alone (`clocked` is 0), or one with an unknown code. -/
  | statusOnlyTransaction (code : Byte) (clocked : Nat)
  /-- R182: a buffered command whose code is not in the catalogue. -/
  | unknownCommand (code : Byte) (body : CommandBody)
  /-- R24 to R26. -/
  | openLoad (body : CommandBody)
  /-- R27 to R39. -/
  | data (body : CommandBody)
  /-- R41 to R45. -/
  | commit (body : CommandBody)
  /-- R46. -/
  | cancelLoad (body : CommandBody)
  /-- R47. -/
  | setControlCodes (body : CommandBody)
  /-- R15, R16. -/
  | queryEntry (body : CommandBody)
  /-- R17. -/
  | listEntries (body : CommandBody)
  /-- R18. -/
  | patchCells (body : CommandBody)
  /-- R19. -/
  | retire (body : CommandBody)
  /-- R20. -/
  | setEntry (body : CommandBody)
  /-- R52, R53. -/
  | addMark (body : CommandBody)
  /-- R54, R55. -/
  | dropMarks (body : CommandBody)
  /-- R85, R86. -/
  | sweep (body : CommandBody)
  /-- R94. -/
  | abortSweep (body : CommandBody)
  /-- R72. -/
  | showKey (body : CommandBody)
  /-- R73. -/
  | declineMiss (body : CommandBody)
  /-- R71. -/
  | setNavigation (body : CommandBody)
  /-- R105. -/
  | setStatus (body : CommandBody)
  /-- R106. -/
  | setGlyphs (body : CommandBody)
  /-- R154. -/
  | setCalendar (body : CommandBody)
  /-- R148. -/
  | setDrive (body : CommandBody)
  /-- R163. -/
  | pauseDrive (body : CommandBody)
  /-- R164. -/
  | resumeDrive (body : CommandBody)
  /-- R162. -/
  | survey (body : CommandBody)
  /-- R127. -/
  | readFaults (body : CommandBody)
  /-- R129, R130. -/
  | clearFaults (body : CommandBody)
  /-- R128. -/
  | readRow (body : CommandBody)
  /-- R177. -/
  | setTouch (body : CommandBody)
  /-- R187. -/
  | setNoticeMask (body : CommandBody)
  /-- R188. -/
  | readStatus (body : CommandBody)
  /-- R190: the RESET command. -/
  | resetCommand (body : CommandBody)
  /-- R189: power comes up. -/
  | powerOnReset
  /-- R189: the RESET pin is released. -/
  | pinReset
  /-- R63: the five patron keys are sampled, true for a key that is down. -/
  | keySample (prev next mark seek call : Bool)
  /-- R40: a slot's idle timer expires. -/
  | timeout (slot : Fin 2)
  /-- R87, R88: the Sweep Engine visits the next entry. -/
  | sweepVisit
  /-- R107: the blink timer expires. -/
  | blinkTimerExpiry
  /-- R168 to R170: a zone's electrode gives a reading. The zone is numbered 2b + h (R167). -/
  | zoneReading (zone : Fin 16) (count : BitVec 12)
  /-- R173: a zone's hold timer expires. -/
  | holdTimerExpiry (zone : Fin 16)
  /-- R140: one charge unit arrives. -/
  | refillUnitArrival
  /-- R141: a held plan whose cost the level has reached starts. -/
  | strokeStart
  /-- R145: the stroke in flight completes, with the 80 positions that the sense lines read. -/
  | strokeCompletion (sensed : PinRow)
  /-- R146: the supply comparator falls. -/
  | supplyFall
  /-- R147: the supply comparator rises. -/
  | supplyRise
  /-- R189: the RESET pin is asserted. -/
  | resetPinAsserted
  deriving DecidableEq, Repr

end Sys2Proof
end

