-- ==== Sys2Proof/Decode.lean ====
section
/-! DEFINITION. The commands that a word spells by the opcode table's bits. No row of the table gives
bits: the part has no instruction words, and its commands arrive as frames (R181, R184). -/

namespace Sys2Proof

/-- The row that a word of `nbits` bits spells: none, because no row of the opcode table gives bits. -/
def decodeTableWord (nbits w : Nat) : Option Instr :=
  match nbits, w with
  | _, _ => none

end Sys2Proof
end

