-- ==== Sys2Proof/Config.lean ====
section
/-! DEFINITION. What the manual fixes in numbers, and the free values it leaves open. -/

namespace Sys2Proof.Config

/-- A byte of a response payload to which the manual gives a place and no value: the page bytes of an
absent key record, the stream offset of an IDLE slot and the progress of an IDLE sweep in READ STATUS
(R184, R188; log entry 7). The first argument numbers the response, the second the place in it.
It has no body: nothing can be proved of its value. -/
opaque unstatedByte (response place : Nat) : Byte

/-- Bytes of one frame (R4). -/
def frameBytes : Nat := 1280

/-- Cells of one line (R4). -/
def cellsPerLine : Nat := 40

/-- The most mark records one entry holds (R50). -/
def maxMarks : Nat := 8

/-- The most records the fault table holds (R123). -/
def maxFaults : Nat := 64

/-- The reservoir's capacity in CU (R140). -/
def reservoirCapacity : Nat := 2000

/-- The cost in CU of selecting a row, and so of a survey stroke (R133, R136). -/
def rowSelectCost : Nat := 10

/-- The most strokes one line visit gives one row (R158). -/
def strokesPerRow : Nat := 4

/-- The longest response payload in bytes (R17, R184). -/
def maxPayload : Nat := 300

/-- A bound on the moves of the Row Calendar inside one event. A calendar of at most 4 slots of at most
8 visits gives every line a visit within 33 rounds of 32 visits, and a visit takes 5 moves
(R154, R158; log entry 18). -/
def calendarFuel : Nat := 5300

end Sys2Proof.Config
end

