-- ==== Sys2Proof/Machine/State.lean ====
section
/-! DEFINITION. The state of the part, block by block as the manual lays it out (00, Block overview), its
values after a reset, and the reasons a step can stop. -/

namespace Sys2Proof.Machine

/-! ### Keys, marks and directory entries (01, 03) -/

/-- A document and a page: what names a page to the host and the patron (R1, R3). -/
structure Key where
  doc : BitVec 4
  page : BitVec 16
  deriving DecidableEq, Repr

/-- How a frame is read (R4). -/
inductive Kind where
  | text
  | raw
  deriving DecidableEq, Repr

/-- The class of a mark (R49). -/
inductive MarkClass where
  | cursor
  | bookmark
  | highlight
  | find
  deriving DecidableEq, Repr

/-- Who laid a mark (R49). -/
inductive Owner where
  | supplied
  | patron
  deriving DecidableEq, Repr

/-- A mark record (R49): it covers `length` cells of its line from `first` on. -/
structure Mark where
  cls : MarkClass
  owner : Owner
  line : Fin 32
  first : Nat
  length : Nat
  deriving DecidableEq, Repr

/-- The state of a directory entry (R1, R2). -/
inductive EntryState where
  | free
  | loading
  | ready
  | shown
  deriving DecidableEq, Repr

/-- A directory entry (R1). -/
structure Entry where
  state : EntryState
  key : Option Key
  kind : Kind
  revision : BitVec 16
  pinned : Bool
  group : BitVec 4
  held : Bool
  marks : List Mark
  slot : Option (Fin 2)
  deriving DecidableEq, Repr

/-- The FREE values of R1. -/
def Entry.free : Entry where
  state := .free
  key := none
  kind := .text
  revision := 0
  pinned := false
  group := 0
  held := false
  marks := []
  slot := none

/-- The Page Directory (01): the entries, their frames as one addressed store (byte o of frame i at
1280 i + o, in rising order of address, 0x00 bytes not listed), and the reclaim queue, oldest first. -/
structure Directory where
  entries : Vector Entry 48
  frames : List Host.Cell
  queue : List (Fin 48)
  deriving DecidableEq, Repr

/-! ### Load slots (02) -/

/-- A condition that PATCH CELLS, RETIRE and the mark commands carry (R14). -/
inductive Condition where
  | unconditional
  | ifRevision (r : BitVec 16)
  deriving DecidableEq, Repr

/-- A commit condition (R22, R41). -/
inductive CommitCondition where
  | newOnly
  | any
  | ifRevision (r : BitVec 16)
  deriving DecidableEq, Repr

/-- The actions of the control-code table (R30). -/
inductive ControlAction where
  | lineEnd
  | pageEnd
  | repeatCell
  | skip
  | markOpen
  | markClose
  deriving DecidableEq, Repr

/-- An entry of the control-code table (R30). `action` is none only in an entry that is not consulted and
was given an action number that names none (R47; log entry 16). -/
structure ControlEntry where
  code : Option Byte
  action : Option ControlAction
  last : Bool
  deriving DecidableEq, Repr

/-- Where the decoder of a TEXT stream stands between two bytes: escape pending, or the operand state
with the operands gathered so far, never both (R22, R29, R34). -/
inductive TextState where
  /-- escape pending no, operand state none -/
  | plain
  /-- escape pending yes -/
  | escape
  /-- REPEAT with no operand gathered -/
  | repeatCount
  /-- REPEAT with its count gathered -/
  | repeatPattern (count : Byte)
  /-- SKIP awaiting its operand -/
  | skipCount
  /-- MARK_OPEN awaiting its class -/
  | markClass
  deriving DecidableEq, Repr

/-- An inline mark not yet closed (R22, R35). -/
structure OpenMark where
  cls : MarkClass
  line : Nat
  cell : Nat
  deriving DecidableEq, Repr

/-- The record of a load slot that is OPEN or COMPLETE (R22). `position` counts the frame bytes passed: of a
TEXT load, line `position / 40` and cell `position % 40` is the write position, of a RAW load it is the
fill count; 1280 is past the end of the page. -/
structure LoadSlot where
  complete : Bool
  entry : Fin 48
  key : Key
  kind : Kind
  condition : CommitCondition
  offset : Nat
  position : Nat
  text : TextState
  openMark : Option OpenMark
  dropped : Nat
  deriving DecidableEq, Repr

/-- The Stream Decoder (02). A slot without a record is IDLE; its idle timer runs exactly while it has
one (R40). -/
structure Decoder where
  slots : Vector (Option LoadSlot) 2
  escape : Byte
  codes : Vector ControlEntry 8
  deriving DecidableEq, Repr

/-! ### Sweeps (05) -/

/-- A sweep descriptor: the criteria of R83 and the actions of R84. -/
structure SweepDescriptor where
  document : Option (BitVec 4)
  first : BitVec 16
  last : BitVec 16
  mask : BitVec 4
  v0 : BitVec 4
  v1 : BitVec 4
  retire : Bool
  setPin : Option Bool
  setGroup : Option (BitVec 4)
  clearMarks : Option (BitVec 4 × BitVec 2)
  moveDoc : Option (BitVec 4)
  deriving DecidableEq, Repr

/-- The record of a RUNNING sweep (R82). -/
structure SweepRun where
  descriptor : SweepDescriptor
  progress : Fin 48
  matched : Nat
  changed : Nat
  skippedShown : Nat
  collisions : Nat
  deriving DecidableEq, Repr

/-! ### Navigation (04) -/

/-- The navigation condition (R66). -/
inductive NavCondition where
  | settled
  | waitMiss
  | waitLoad
  | waitSweep
  deriving DecidableEq, Repr

/-- A key debouncer: the registered position and the run count (R63). -/
structure Debouncer where
  pressed : Bool
  run : Nat
  deriving DecidableEq, Repr

/-- The patron keys in the order in which their presses are acted on (R64). -/
inductive PatronKey where
  | prev
  | next
  | mark
  | seek
  | call
  deriving DecidableEq, Repr

/-- The Navigation Unit (04): the navigation state (R65), the miss record (R68) and the debouncers in the
order of PatronKey. -/
structure Navigation where
  document : BitVec 4
  shownKey : Option Key
  wanted : Option (BitVec 16)
  cond : NavCondition
  lock : Bool
  missKey : Option Key
  missLocked : Bool
  keys : Vector Debouncer 5
  deriving DecidableEq, Repr

/-! ### Compositor (06) -/

/-- The glyph set (R106), the digit patterns in the order 0 to 9. -/
structure Glyphs where
  numberSign : Byte
  digits : Vector Byte 10
  settled : Byte
  waiting : Byte
  deriving DecidableEq, Repr

/-- The Compositor (06). `markPins` holds, for each line, the mark pins of its bottom pin row; no other row
has mark pins (R62). `blinkTimer` is the period of the running timer, none when it is stopped (R107). -/
structure Compositor where
  target : Vector PinRow 128
  markPins : Vector PinRow 32
  blinkOn : Bool
  blinkTime : Nat
  blinkTimer : Option Nat
  statusOn : Bool
  statusText : Vector Byte 30
  glyphs : Glyphs
  deriving DecidableEq, Repr

/-! ### Pin Field (07) -/

/-- A record of the fault table (R123): `stuckUp` is the direction STUCK_UP. -/
structure FaultRecord where
  row : Fin 128
  col : Fin 80
  stuckUp : Bool
  deriving DecidableEq, Repr

/-- The Pin Field (07). `attempts` lists the pins whose attempt count is not 0, pin (r, c) under 80 r + c,
in rising order. -/
structure PinField where
  confirmed : Vector PinRow 128
  known : Vector Bool 128
  attempts : List (Nat × Nat)
  faults : List FaultRecord
  deriving DecidableEq, Repr

/-! ### Stroke Planner and Drive (08) -/

/-- The pulse kinds (R134). -/
inductive Pulse where
  | firm
  | boost
  | soft
  deriving DecidableEq, Repr

/-- A move of a drive plan: the pin column, the pulse and the planned position, true for UP (07, 7.5). -/
structure Move where
  col : Fin 80
  pulse : Pulse
  up : Bool
  deriving DecidableEq, Repr

/-- The two kinds of stroke (R133). -/
inductive StrokeKind where
  | drive
  | survey
  deriving DecidableEq, Repr

/-- A stroke plan (R137): the moves of a survey are none. `strokeTime` is in steps of 0.1 ms. -/
structure Plan where
  kind : StrokeKind
  row : Fin 128
  moves : List Move
  cost : Nat
  strokeTime : Nat
  deriving DecidableEq, Repr

/-- The condition of the drive, with the plan it holds (R133). -/
inductive DriveCondition where
  | noPlan
  | waitCharge (plan : Plan)
  | inFlight (plan : Plan)
  deriving DecidableEq, Repr

/-- What the drive supply comparator says (R146). -/
inductive Supply where
  | ok
  | low
  deriving DecidableEq, Repr

/-- The Stroke Planner and Drive (08): its condition, the reservoir level (R140), the supply monitor (R146)
and the settings of SET DRIVE (R148). -/
structure Drive where
  cond : DriveCondition
  level : Nat
  supply : Supply
  strokeTime : Nat
  refillRate : Nat
  bankCap : Nat
  markExtra : Nat
  deriving DecidableEq, Repr

/-! ### Row Calendar (09) -/

/-- The scheduler state (R152). -/
inductive Scheduler where
  | surveying
  | driving
  | idle
  | paused
  | supplyLow
  deriving DecidableEq, Repr

/-- A slot of the calendar (R153). -/
structure CalendarSlot where
  first : Nat
  last : Nat
  count : Nat
  follow : Bool
  cursor : Fin 32
  deriving DecidableEq, Repr

/-- The line visit in progress (R157): it stands on pin row 4 `line` + `row`. `started` says that a stroke has
started during it, so that it is not quiet (R159). -/
structure LineVisit where
  line : Fin 32
  row : Fin 4
  strokes : Nat
  started : Bool
  deriving DecidableEq, Repr

/-- The Row Calendar (09). `quiet` is the quiet set (R159), without repeats. -/
structure Calendar where
  sched : Scheduler
  hold : Bool
  slots : List CalendarSlot
  current : Nat
  visitsLeft : Nat
  visit : Option LineVisit
  quiet : List (Fin 32)
  deriving DecidableEq, Repr

/-! ### Touch Unit (10) -/

/-- The state of a zone (R168). -/
inductive ZoneState where
  | clear
  | touched
  | expired
  deriving DecidableEq, Repr

/-- A zone record (R168). `hold` is the limit, in steps of 0.5 s, of a RUNNING hold timer, none when it is
STOPPED. -/
structure Zone where
  state : ZoneState
  baseline : Option Nat
  run : Nat
  hold : Option Nat
  deriving DecidableEq, Repr

/-- The Touch Unit (10): the zones in the order of R167, the reading band (R174) and the settings of SET
TOUCH (R177). -/
structure Touch where
  zones : Vector Zone 16
  band : Fin 8
  tOn : Nat
  tOff : Nat
  holdLimit : Nat
  deriving DecidableEq, Repr

/-! ### Link Interface (11) -/

/-- The status codes of a response (R184). -/
inductive Status where
  | ok
  | accepted
  | unknownCommand
  | badLength
  | badArgument
  | notFound
  | exists_
  | stale
  | held
  | shownEntry
  | storeFull
  | keyBusy
  | noSlot
  | slotState
  | sweepBusy
  | marksFull
  | badCalendar
  | streamFault
  | noResponse
  deriving DecidableEq, Repr

/-- A command frame in the command buffer (R181, R184). -/
structure CommandFrame where
  code : Byte
  body : CommandBody
  deriving DecidableEq, Repr

/-- A response (R183, R184). -/
structure Response where
  tag : Byte
  code : Byte
  status : Status
  payload : List Byte
  deriving DecidableEq, Repr

/-- The stream errors (R39). -/
inductive StreamError where
  | badEscape
  | badOperand
  | timeout
  deriving DecidableEq, Repr

/-- The cause a SHOWN notice carries (R67). -/
inductive ShownCause where
  | nav
  | command
  | commit
  deriving DecidableEq, Repr

/-- A notice with its subject and payload (R186). The counts of KEY stand in the order of PatronKey. -/
inductive Notice where
  | miss (key : Key)
  | streamFault (slot : Fin 2) (error : StreamError) (offset : Nat)
  | sweepDone (matched changed skippedShown collisions : Nat) (aborted : Bool)
  | shown (key : Key) (cause : ShownCause)
  | key (prev next mark seek call : Nat)
  | touch (zones : Vector ZoneState 16) (band : Fin 8)
  | pinFault (newStuck : Nat) (tableFull : Bool)
  | drive (sched : Scheduler) (supply : Supply)
  | settle (deferred stuck : Nat)
  deriving DecidableEq, Repr

/-- The kind of a reset (R189). -/
inductive ResetKind where
  | powerOn
  | pin
  | command
  deriving DecidableEq, Repr

/-- The Link Interface (11). Bit n of `mask` masks kind code n + 1 (R187). `shiftedOut` and `served` are the
model's own fields: the bytes shifted out in the latest transaction (log entry 20) and the number of
responses formed, which feeds the free values (log entry 7). -/
structure Link where
  buffer : Option CommandFrame
  response : Option Response
  notices : List Notice
  mask : BitVec 9
  cause : ResetKind
  shiftedOut : List Byte
  served : Nat
  deriving DecidableEq, Repr

/-! ### The part -/

/-- The state of the part: its blocks, the level of its two input pins that are held, and the queue of rows
waiting to be taken, first in, first out. `resetPin` is true while the RESET pin is asserted; `supplyPin` is
what the drive supply comparator reads. -/
structure State where
  pending : List Instr
  resetPin : Bool
  supplyPin : Supply
  link : Link
  dir : Directory
  load : Decoder
  sweep : Option SweepRun
  nav : Navigation
  comp : Compositor
  pins : PinField
  drive : Drive
  cal : Calendar
  touch : Touch
  deriving DecidableEq, Repr

/-- Why a step stops with a fault: never. The manual gives every row an effect in every state, so there is no
reason to list, and the type is empty. -/
inductive Fault where
  deriving DecidableEq, Repr

/-- Why a row has no meaning. -/
inductive Refusal where
  /-- An arm of exec that has no meaning yet. No arm raises it; safe. -/
  | notModelled (mnemonic : String)
  deriving DecidableEq, Repr

/-! ### Values after a reset -/

/-- R189: the Link Interface after a reset of kind `cause`. -/
def Link.afterReset (cause : ResetKind) (shiftedOut : List Byte) (served : Nat) : Link where
  buffer := none
  response := none
  notices := []
  mask := 0
  cause := cause
  shiftedOut := shiftedOut
  served := served

/-- R21. -/
def Directory.afterReset : Directory where
  entries := Vector.replicate 48 Entry.free
  frames := []
  queue := []

/-- The default control-code table of R30. -/
def defaultCodes : Vector ControlEntry 8 :=
  #v[⟨some 0x0D, some .lineEnd, false⟩, ⟨some 0x0C, some .pageEnd, false⟩,
     ⟨some 0x12, some .repeatCell, false⟩, ⟨some 0x13, some .skip, false⟩,
     ⟨some 0x1C, some .markOpen, false⟩, ⟨some 0x1D, some .markClose, true⟩,
     ⟨none, some .lineEnd, false⟩, ⟨none, some .lineEnd, false⟩]

/-- R48. -/
def Decoder.afterReset : Decoder where
  slots := Vector.replicate 2 none
  escape := 0xFF
  codes := defaultCodes

/-- R81. -/
def Navigation.afterReset : Navigation where
  document := 0
  shownKey := none
  wanted := none
  cond := .settled
  lock := false
  missKey := none
  missLocked := false
  keys := Vector.replicate 5 ⟨false, 0⟩

/-- The default glyph set of R106. -/
def defaultGlyphs : Glyphs where
  numberSign := 0x3C
  digits := #v[0x1A, 0x01, 0x03, 0x09, 0x19, 0x11, 0x0B, 0x1B, 0x13, 0x0A]
  settled := 0x00
  waiting := 0xC0

/-- R112. -/
def Compositor.afterReset : Compositor where
  target := Vector.replicate 128 0
  markPins := Vector.replicate 32 0
  blinkOn := true
  blinkTime := 600
  blinkTimer := some 600
  statusOn := true
  statusText := Vector.replicate 30 0
  glyphs := defaultGlyphs

/-- R132, with the fault table that the reset leaves. -/
def PinField.afterReset (faults : List FaultRecord) : PinField where
  confirmed := Vector.replicate 128 0
  known := Vector.replicate 128 false
  attempts := []
  faults := faults

/-- The survey plan of a row (R136). -/
def surveyPlan (row : Fin 128) (strokeTime : Nat) : Plan where
  kind := .survey
  row := row
  moves := []
  cost := Config.rowSelectCost
  strokeTime := strokeTime

/-- R150 and R166: with the supply good, the scheduler asks in the reset's event for a survey of row 0, which
waits for charge, since the level is 0 (log entry 21). -/
def Drive.afterReset (supply : Supply) : Drive where
  cond := match supply with
    | .ok => .waitCharge (surveyPlan 0 12)
    | .low => .noPlan
  level := 0
  supply := supply
  strokeTime := 12
  refillRate := 60
  bankCap := 12
  markExtra := 2

/-- The default calendar of R153. The first and last line of slot 0 are not used, since it is a follow slot, and the manual
gives them no value: they are 0 and 0 (log entry 27). -/
def defaultSlots : List CalendarSlot :=
  [⟨0, 0, 1, true, 0⟩, ⟨0, 31, 2, false, 0⟩]

/-- R166. -/
def Calendar.afterReset (supply : Supply) : Calendar where
  sched := match supply with
    | .ok => .surveying
    | .low => .supplyLow
  hold := false
  slots := defaultSlots
  current := 0
  visitsLeft := 1
  visit := none
  quiet := []

/-- R179. -/
def Touch.afterReset : Touch where
  zones := Vector.replicate 16 ⟨.clear, none, 0, none⟩
  band := 0
  tOn := 120
  tOff := 60
  holdLimit := 6

/-- The part right after a power-on reset with the drive supply adequate and the RESET pin not asserted
(log entries 4 and 5). -/
def State.reset : State where
  pending := []
  resetPin := false
  supplyPin := .ok
  link := Link.afterReset .powerOn [] 0
  dir := Directory.afterReset
  load := Decoder.afterReset
  sweep := none
  nav := Navigation.afterReset
  comp := Compositor.afterReset
  pins := PinField.afterReset []
  drive := Drive.afterReset .ok
  cal := Calendar.afterReset .ok
  touch := Touch.afterReset

end Sys2Proof.Machine
end

