-- ==== Sys2Proof/Machine/Ops.lean ====
section
/-! DEFINITION. The named operations that several rows share: replacing one block of the state, the sparse
store, places on the page, frames, keys, the reclaim queue and the notice queue. -/

namespace Sys2Proof.Machine

/-! ### Replacing one block -/

/-- The state with its Link Interface replaced. -/
def State.setLink (s : State) (x : Link) : State := { s with link := x }
/-- The state with its Page Directory replaced. -/
def State.setDir (s : State) (x : Directory) : State := { s with dir := x }
/-- The state with its Stream Decoder replaced. -/
def State.setLoad (s : State) (x : Decoder) : State := { s with load := x }
/-- The state with its Sweep Engine replaced. -/
def State.setSweep (s : State) (x : Option SweepRun) : State := { s with sweep := x }
/-- The state with its Navigation Unit replaced. -/
def State.setNav (s : State) (x : Navigation) : State := { s with nav := x }
/-- The state with its Compositor replaced. -/
def State.setComp (s : State) (x : Compositor) : State := { s with comp := x }
/-- The state with its Pin Field replaced. -/
def State.setPins (s : State) (x : PinField) : State := { s with pins := x }
/-- The state with its Stroke Planner and Drive replaced. -/
def State.setDrive (s : State) (x : Drive) : State := { s with drive := x }
/-- The state with its Row Calendar replaced. -/
def State.setCal (s : State) (x : Calendar) : State := { s with cal := x }
/-- The state with its Touch Unit replaced. -/
def State.setTouch (s : State) (x : Touch) : State := { s with touch := x }

/-! ### The sparse store, in one canonical form: addresses strictly rising, no default value listed -/

/-- What the store holds at an address; `dflt` where it lists nothing. -/
def storeRead {α : Type} (dflt : α) : List (Nat × α) → Nat → α
  | [], _ => dflt
  | (k, v) :: rest, a => if a < k then dflt else if a = k then v else storeRead dflt rest a

/-- The store after a write. Writing the default removes the entry. -/
def storeWrite {α : Type} [DecidableEq α] (dflt : α) : List (Nat × α) → Nat → α → List (Nat × α)
  | [], a, v => if v = dflt then [] else [(a, v)]
  | (k, w) :: rest, a, v =>
    if a < k then (if v = dflt then (k, w) :: rest else (a, v) :: (k, w) :: rest)
    else if a = k then (if v = dflt then rest else (a, v) :: rest)
    else (k, w) :: storeWrite dflt rest a v

/-- The store with every address that `p` names put back to the default. -/
def storeDrop {α : Type} (p : Nat → Bool) (m : List (Nat × α)) : List (Nat × α) :=
  m.filter fun c => !p c.1

/-- The canonical form: each address is above the one before, and no entry holds the default. -/
def storeWf {α : Type} [DecidableEq α] (dflt : α) : List (Nat × α) → Bool
  | [] => true
  | [(_, v)] => v != dflt
  | (k, v) :: (k', v') :: rest => decide (k < k') && v != dflt && storeWf dflt ((k', v') :: rest)

/-- The canonical form of the frames' store. -/
abbrev Memory.wf (m : List Host.Cell) : Bool := storeWf 0#8 m

/-! ### Places on the page (R98, R113, R167) -/

/-- Pin row k of line L. -/
def pinRow (line : Fin 32) (k : Fin 4) : Fin 128 := ⟨4 * line.val + k.val, by omega⟩
/-- The line of a pin row. -/
def lineOfRow (r : Fin 128) : Fin 32 := ⟨r.val / 4, by omega⟩
/-- Which of its line's four pin rows a pin row is. -/
def rowInLine (r : Fin 128) : Fin 4 := ⟨r.val % 4, by omega⟩
/-- The band of a line. -/
def bandOfLine (line : Fin 32) : Fin 8 := ⟨line.val / 4, by omega⟩
/-- The band of a pin row. -/
def bandOfRow (r : Fin 128) : Fin 8 := ⟨r.val / 16, by omega⟩
/-- The first line of a band. -/
def firstLineOfBand (b : Fin 8) : Fin 32 := ⟨4 * b.val, by omega⟩
/-- The place of zone (b, h) in the order of R167. -/
def zoneAt (b : Fin 8) (h : Fin 2) : Fin 16 := ⟨2 * b.val + h.val, by omega⟩
/-- The band of a zone. -/
def bandOfZone (z : Fin 16) : Fin 8 := ⟨z.val / 2, by omega⟩
/-- The half of a zone. -/
def halfOfZone (z : Fin 16) : Fin 2 := ⟨z.val % 2, by omega⟩
/-- The half of a pin column. -/
def halfOfCol (c : Fin 80) : Fin 2 := ⟨c.val / 40, by omega⟩
/-- The half of a cell. -/
def halfOfCell (c : Nat) : Fin 2 := if c < 20 then 0 else 1
/-- The zone of a pin. -/
def zoneOfPin (r : Fin 128) (c : Fin 80) : Fin 16 := zoneAt (bandOfRow r) (halfOfCol c)
/-- The number under which the attempt count of a pin is kept. -/
def pinIndex (r : Fin 128) (c : Fin 80) : Nat := 80 * r.val + c.val
/-- The set of one pin column. -/
def columnBit (c : Fin 80) : PinRow := 1#80 <<< c.val
/-- The pin columns of a half: 0 to 39 or 40 to 79. -/
def halfColumns (h : Fin 2) : PinRow := if h = 0 then 0xFFFFFFFFFF#80 else 0xFFFFFFFFFF0000000000#80
/-- The columns of a set, in ascending order. -/
def columnsOf (x : PinRow) : List (Fin 80) := (List.finRange 80).filter fun c => x.getLsbD c.val

/-! ### Frames (R1, R4) -/

/-- The address of byte `o` of frame `i`. -/
def frameAddress (i : Fin 48) (o : Nat) : Nat := Config.frameBytes * i.val + o

/-- Byte `o` of frame `i`. -/
def Directory.frameByte (d : Directory) (i : Fin 48) (o : Nat) : Byte :=
  storeRead 0#8 d.frames (frameAddress i o)

/-- A frames' store with byte `o` of frame `i` written. -/
def writeFrame (m : List Host.Cell) (i : Fin 48) (o : Nat) (b : Byte) : List Host.Cell :=
  storeWrite 0#8 m (frameAddress i o) b

/-- A frames' store with frame `i` cleared to all zero (R1). -/
def clearFrame (m : List Host.Cell) (i : Fin 48) : List Host.Cell :=
  storeDrop (fun a => decide (frameAddress i 0 ≤ a) && decide (a < frameAddress i Config.frameBytes)) m

/-- A frames' store with a run of bytes written from byte `o` of frame `i` on. -/
def writeFrameRun (m : List Host.Cell) (i : Fin 48) (o : Nat) : List Byte → List Host.Cell
  | [] => m
  | b :: rest => writeFrameRun (writeFrame m i o b) i (o + 1) rest

/-! ### Entries and keys (R2, R3) -/

/-- An entry is visible when it is READY or SHOWN (R3). -/
def Entry.visible (e : Entry) : Bool := e.state == .ready || e.state == .shown

/-- The visible entry that holds a key. -/
def Directory.visibleEntry (d : Directory) (k : Key) : Option (Fin 48) :=
  (List.finRange 48).find? fun i => d.entries[i].visible && d.entries[i].key == some k

/-- The LOADING entry that holds a key. -/
def Directory.loadingEntry (d : Directory) (k : Key) : Option (Fin 48) :=
  (List.finRange 48).find? fun i => d.entries[i].state == .loading && d.entries[i].key == some k

/-- The four results of a lookup (R3). -/
inductive Lookup where
  | visible (entry : Fin 48)
  | held (entry : Fin 48)
  | loading (slot : Option (Fin 2))
  | absent
  deriving DecidableEq, Repr

/-- R3: the answer to a lookup of a key. -/
def Directory.lookup (d : Directory) (k : Key) : Lookup :=
  match d.visibleEntry k with
  | some i => if d.entries[i].held then .held i else .visible i
  | none =>
    match d.loadingEntry k with
    | some i => .loading d.entries[i].slot
    | none => .absent

/-- The SHOWN entry (R7). -/
def Directory.shownEntry (d : Directory) : Option (Fin 48) :=
  (List.finRange 48).find? fun i => d.entries[i].state == .shown

/-- The slot of a load of a key, if there is one (R16, R24, R90). -/
def Decoder.slotOfKey (d : Decoder) (k : Key) : Option (Fin 2) :=
  (List.finRange 2).find? fun i => (d.slots[i].map LoadSlot.key) == some k

/-- The directory with entry `i` replaced. -/
def Directory.setEntry (d : Directory) (i : Fin 48) (e : Entry) : Directory :=
  { d with entries := d.entries.set i e }

/-- The decoder with a slot's record replaced. -/
def Decoder.setSlot (d : Decoder) (i : Fin 2) (x : Option LoadSlot) : Decoder :=
  { d with slots := d.slots.set i x }

/-- R1, R10: entry `i` becomes FREE with the FREE values and leaves the reclaim queue; its frame stays. -/
def Directory.freeEntry (d : Directory) (i : Fin 48) : Directory :=
  { d with entries := d.entries.set i Entry.free, queue := d.queue.filter (· ≠ i) }

/-- R10: entry `i` joins the tail of the reclaim queue if it is READY, unpinned and not in it. -/
def Directory.joinQueue (d : Directory) (i : Fin 48) : Directory :=
  if d.entries[i].state == .ready && !d.entries[i].pinned && !d.queue.contains i then
    { d with queue := d.queue ++ [i] }
  else d

/-- R10: entry `i` leaves the reclaim queue. -/
def Directory.leaveQueue (d : Directory) (i : Fin 48) : Directory :=
  { d with queue := d.queue.filter (· ≠ i) }

/-- R10, R11, R20: the pinned value of entry `i` is set, and the reclaim queue follows. -/
def Directory.setPinned (d : Directory) (i : Fin 48) (p : Bool) : Directory :=
  let d' := d.setEntry i { d.entries[i] with pinned := p }
  if p then d'.leaveQueue i else d'.joinQueue i

/-- R12: the first entry of the reclaim queue, from the head, that is not HELD. -/
def Directory.reclaimable (d : Directory) : Option (Fin 48) :=
  d.queue.find? fun i => !d.entries[i].held

/-- The lowest-numbered FREE entry (R25). -/
def Directory.lowestFree (d : Directory) : Option (Fin 48) :=
  (List.finRange 48).find? fun i => d.entries[i].state == .free

/-- R25: the entry a new load is given, and whether it is reclaimed. -/
def Directory.chooseEntry (d : Directory) : Option (Fin 48 × Bool) :=
  match d.lowestFree with
  | some i => some (i, false)
  | none => d.reclaimable.map fun i => (i, true)

/-! ### Notices (R186, R187) -/

/-- The kind code of a notice. -/
def Notice.kindCode : Notice → Nat
  | .miss _ => 1
  | .streamFault _ _ _ => 2
  | .sweepDone _ _ _ _ _ => 3
  | .shown _ _ => 4
  | .key _ _ _ _ _ => 5
  | .touch _ _ => 6
  | .pinFault _ _ => 7
  | .drive _ _ => 8
  | .settle _ _ => 9

/-- The subject of a notice: the slot of a STREAM_FAULT, 0 otherwise (R184). -/
def Notice.subject : Notice → Nat
  | .streamFault slot _ _ => slot.val
  | _ => 0

/-- Whether two notices are of the same kind and subject, so that the queue merges them. -/
def Notice.sameSubject (a b : Notice) : Bool := a.kindCode == b.kindCode && a.subject == b.subject

/-- R186, last column: the queued notice after a posting of its kind and subject. -/
def Notice.merge (old new : Notice) : Notice :=
  match old, new with
  | .key p n m k c, .key p' n' m' k' c' =>
    .key (min 15 (p + p')) (min 15 (n + n')) (min 15 (m + m')) (min 15 (k + k')) (min 15 (c + c'))
  | .pinFault n f, .pinFault n' f' => .pinFault (min 255 (n + n')) (f || f')
  | _, n => n

/-- R186: the queue after a posting: the queued notice of the same kind and subject is updated in its place, or
the notice is appended. -/
def enqueueNotice (q : List Notice) (n : Notice) : List Notice :=
  if q.any (fun o => o.sameSubject n) then q.map (fun o => if o.sameSubject n then o.merge n else o)
  else q ++ [n]

/-- Whether the kind of a notice is masked (R187). -/
def Link.masked (l : Link) (n : Notice) : Bool := l.mask.getLsbD (n.kindCode - 1)

/-- R186, R187: a block posts a notice. -/
def State.post (s : State) (n : Notice) : State :=
  if s.link.masked n then s
  else s.setLink { s.link with notices := enqueueNotice s.link.notices n }

/-- R151: the DRIVE notice, with the scheduler and supply states as they stand. -/
def State.postDrive (s : State) : State := s.post (.drive s.cal.sched s.drive.supply)

/-- R176: the TOUCH notice, with all zone states and the reading band as they stand. -/
def State.postTouch (s : State) : State :=
  s.post (.touch (Vector.ofFn fun z => s.touch.zones[z].state) s.touch.band)

end Sys2Proof.Machine
end

