-- ==== Sys2Proof/Machine/Image.lean ====
section
/-! DEFINITION. Composing the page image: what each line's target and mark pins are, as a function of the
inputs that R97 lists. -/

namespace Sys2Proof.Machine

/-- A row of pins given cell by cell: the pin of the left and of the right column of each cell, bit 0 first. -/
def packPairs : List (Bool × Bool) → Nat
  | [] => 0
  | (left, right) :: rest => left.toNat + 2 * right.toNat + 4 * packPairs rest

/-- A row of pins given by its frame bytes, byte 0 first (the RAW row layout of R4). -/
def packBytes : List Byte → Nat
  | [] => 0
  | b :: rest => b.toNat + 256 * packBytes rest

/-- The cell-byte bit of the left column's dot on pin row k of a line: dots 1, 2, 3, 7 (R98). -/
def leftDot (k : Fin 4) : Nat := if k = 3 then 6 else k.val
/-- The cell-byte bit of the right column's dot on pin row k of a line: dots 4, 5, 6, 8 (R98). -/
def rightDot (k : Fin 4) : Nat := if k = 3 then 7 else k.val + 3

/-- Pin row k of a line of cells (R98). -/
def cellRow (k : Fin 4) (cells : List Byte) : PinRow :=
  BitVec.ofNat 80 (packPairs (cells.map fun b => (b.getLsbD (leftDot k), b.getLsbD (rightDot k))))

/-- R59, R60: the dots a mark of a class gives a cell it covers. `steady` says that the cell's zone is TOUCHED
or EXPIRED. -/
def markDots (blinkOn steady : Bool) : MarkClass → Byte
  | .highlight => 0xC0
  | .find => 0x80
  | .bookmark => 0x40
  | .cursor => if blinkOn || steady then 0xC0 else 0

/-- Whether a mark covers cell C of line L (R49). -/
def Mark.covers (m : Mark) (line : Fin 32) (c : Nat) : Bool :=
  m.line == line && decide (m.first ≤ c) && decide (c < m.first + m.length)

/-- The zone of cell C of line L (R60, R167). -/
def zoneOfCell (line : Fin 32) (c : Nat) : Fin 16 := zoneAt (bandOfLine line) (halfOfCell c)

/-- Whether a CURSOR over a cell of this zone stands steady (R60). -/
def State.zoneSteady (s : State) (z : Fin 16) : Bool := s.touch.zones[z].state != .clear

/-- R59, R100: the target cell byte of a TEXT entry's cell: the frame's byte with the contributions of every
covering mark added. -/
def State.textCell (s : State) (i : Fin 48) (line : Fin 32) (c : Nat) : Byte :=
  let steady := s.zoneSteady (zoneOfCell line c)
  (s.dir.entries[i].marks.filter (·.covers line c)).foldl
    (fun b m => b ||| markDots s.comp.blinkOn steady m.cls)
    (s.dir.frameByte i (Config.cellsPerLine * line.val + c))

/-- The decimal digits of a page number, without leading zeros (R103). -/
def pageDigits (n : Nat) : List Nat :=
  (if 10000 ≤ n then [n / 10000 % 10] else []) ++ (if 1000 ≤ n then [n / 1000 % 10] else []) ++
    (if 100 ≤ n then [n / 100 % 10] else []) ++ (if 10 ≤ n then [n / 10 % 10] else []) ++ [n % 10]

/-- The pattern of a digit (R106). -/
def Glyphs.digit (g : Glyphs) (d : Nat) : Byte := g.digits.toList.getD d 0

/-- R103: the six cells of the number sign and the page field, for the shown page or none. -/
def pageField (g : Glyphs) : Option (BitVec 16) → List Byte
  | none => List.replicate 6 0
  | some p =>
    let digits := (pageDigits p.toNat).map g.digit
    g.numberSign :: digits ++ List.replicate (5 - digits.length) 0

/-- The page of the SHOWN entry's key (R103). -/
def Directory.shownPage (d : Directory) : Option (BitVec 16) :=
  match d.shownEntry with
  | some i => d.entries[i].key.map Key.page
  | none => none

/-- R104: the indicator cell. -/
def State.indicator (s : State) : Byte :=
  if s.nav.cond = .settled then s.comp.glyphs.settled else s.comp.glyphs.waiting

/-- R102: the 40 cells of the status line. -/
def State.statusCells (s : State) : List Byte :=
  s.comp.statusText.toList ++ [s.indicator, 0] ++ pageField s.comp.glyphs s.dir.shownPage ++ [0, 0]

/-- Where a line comes from (R99). -/
inductive LineSource where
  | status
  | blank
  | text (entry : Fin 48)
  | raw (entry : Fin 48)
  deriving DecidableEq, Repr

/-- R99: the source of a line. -/
def State.lineSource (s : State) (line : Fin 32) : LineSource :=
  if line.val = 31 ∧ s.comp.statusOn = true then .status
  else match s.dir.shownEntry with
    | none => .blank
    | some i =>
      match s.dir.entries[i].kind with
      | .text => .text i
      | .raw => .raw i

/-- R101: pin row r of a RAW entry. -/
def State.rawRow (s : State) (i : Fin 48) (r : Fin 128) : PinRow :=
  BitVec.ofNat 80 (packBytes ((List.range 10).map fun j => s.dir.frameByte i (10 * r.val + j)))

/-- R100: the cells of a line of a TEXT entry. -/
def State.textCells (s : State) (i : Fin 48) (line : Fin 32) : List Byte :=
  (List.range Config.cellsPerLine).map fun c => s.textCell i line c

/-- R97, R99: the 80 targets of a pin row, composed from the inputs as they stand. -/
def State.composeRow (s : State) (r : Fin 128) : PinRow :=
  match s.lineSource (lineOfRow r) with
  | .status => cellRow (rowInLine r) s.statusCells
  | .blank => 0
  | .text i => cellRow (rowInLine r) (s.textCells i (lineOfRow r))
  | .raw i => s.rawRow i r

/-- R62, R100: the mark pins of the bottom pin row of a line. -/
def State.composeMarkPins (s : State) (line : Fin 32) : PinRow :=
  match s.lineSource line with
  | .text i =>
    BitVec.ofNat 80 (packPairs ((List.range Config.cellsPerLine).map fun c =>
      let covered := s.dir.entries[i].marks.any (·.covers line c)
      (covered, covered)))
  | _ => 0

/-- Whether a line renders marks: it is composed from the frame of a SHOWN TEXT entry (R61). -/
def State.rendersMarks (s : State) (line : Fin 32) : Bool :=
  match s.lineSource line with
  | .text _ => true
  | _ => false

/-- The marks of the SHOWN entry, none when no entry is SHOWN. -/
def Directory.shownMarks (d : Directory) : List Mark :=
  match d.shownEntry with
  | some i => d.entries[i].marks
  | none => []

/-- Whether a line of the SHOWN entry holds a CURSOR cell in a half (R108, R109). -/
def State.cursorInHalf (s : State) (line : Fin 32) (h : Fin 2) : Bool :=
  s.dir.shownMarks.any fun m => m.cls == .cursor &&
    (List.range Config.cellsPerLine).any fun c => m.covers line c && halfOfCell c == h

/-- R108: the lines that a change of blink phase recomposes. -/
def State.blinkLines (s : State) : List (Fin 32) :=
  (List.finRange 32).filter fun line => s.rendersMarks line &&
    (List.finRange 2).any fun h =>
      s.cursorInHalf line h && !s.zoneSteady (zoneAt (bandOfLine line) h)

/-- R109: the lines that a change of a zone's state recomposes. -/
def State.zoneLines (s : State) (z : Fin 16) : List (Fin 32) :=
  (List.finRange 32).filter fun line => bandOfLine line == bandOfZone z && s.rendersMarks line &&
    s.cursorInHalf line (halfOfZone z)

end Sys2Proof.Machine
end

