-- ==== Sys2Proof/Machine/Planner.lean ====
section
/-! DEFINITION. The Pin Field's candidates and the Stroke Planner: which pins the next stroke of a row moves,
at what cost, and the start of a held plan. -/

namespace Sys2Proof.Machine

/-! ### Candidates (R116, R137) -/

/-- R116: the candidates of a pin row: the pins of a known row whose target differs from their confirmed
position. -/
def State.candidates (s : State) (r : Fin 128) : PinRow :=
  if s.pins.known[r] then s.comp.target[r] ^^^ s.pins.confirmed[r] else 0

/-- The columns of a pin row that have a record in the fault table. -/
def PinField.stuckColumns (p : PinField) (r : Fin 128) : PinRow :=
  (p.faults.filter fun f => f.row == r).foldl (fun acc f => acc ||| columnBit f.col) 0

/-- The columns of a pin row that lie in a TOUCHED zone. -/
def State.touchedColumns (s : State) (r : Fin 128) : PinRow :=
  (if s.touch.zones[zoneAt (bandOfRow r) 0].state = .touched then halfColumns 0 else 0) |||
  (if s.touch.zones[zoneAt (bandOfRow r) 1].state = .touched then halfColumns 1 else 0)

/-- R116: the deferred candidates of a pin row. -/
def State.deferred (s : State) (r : Fin 128) : PinRow :=
  s.candidates r &&& ~~~(s.pins.stuckColumns r) &&& s.touchedColumns r

/-- R116: the stuck candidates of a pin row. -/
def State.stuckCandidates (s : State) (r : Fin 128) : PinRow :=
  s.candidates r &&& s.pins.stuckColumns r

/-- R137: the strokable candidates of a pin row. -/
def State.strokable (s : State) (r : Fin 128) : PinRow :=
  s.candidates r &&& ~~~(s.pins.stuckColumns r) &&& ~~~(s.touchedColumns r)

/-- R159: the deferred and the stuck candidates over all 128 pin rows. -/
def State.settleNotice (s : State) : Notice :=
  .settle (((List.finRange 128).map fun r => (columnsOf (s.deferred r)).length).sum)
    (((List.finRange 128).map fun r => (columnsOf (s.stuckCandidates r)).length).sum)

/-! ### Forming a plan (R134 to R138) -/

/-- R134: the cost of a pulse in CU. -/
def pulseCost (p : Pulse) (up : Bool) : Nat :=
  match p, up with
  | .firm, true => 8
  | .firm, false => 5
  | .boost, true => 14
  | .boost, false => 9
  | .soft, true => 4
  | .soft, false => 3

/-- R136: the cost of a drive plan. -/
def planCost (moves : List Move) : Nat :=
  Config.rowSelectCost + (moves.map fun m => pulseCost m.pulse m.up).sum

/-- The attempt count of a pin (R117). -/
def PinField.attempt (p : PinField) (r : Fin 128) (c : Fin 80) : Nat := storeRead 0 p.attempts (pinIndex r c)

/-- R135: the pulse kind of a pin that is moved. -/
def State.pulseFor (s : State) (r : Fin 128) (c : Fin 80) : Pulse :=
  if s.touch.zones[zoneOfPin r c].state = .expired then .soft
  else if s.pins.attempt r c = 0 then .firm
  else .boost

/-- R62: whether a pin is a mark pin, as the Compositor holds the set. -/
def State.markPin (s : State) (r : Fin 128) (c : Fin 80) : Bool :=
  rowInLine r == 3 && s.comp.markPins[lineOfRow r].getLsbD c.val

/-- R133: the columns of a bank, in ascending order. -/
def bankColumns (k : Fin 4) : List (Fin 80) :=
  (List.finRange 20).map fun j => ⟨20 * k.val + j.val, by omega⟩

/-- R138: the columns that a plan moves in one bank. The first pass takes strokable candidates up to BANK_CAP;
the second goes on after the last one taken and takes mark pins only, up to MARK_EXTRA more. -/
def State.bankChoice (s : State) (r : Fin 128) (k : Fin 4) : List (Fin 80) :=
  let able := s.strokable r
  let cols := (bankColumns k).filter fun c => able.getLsbD c.val
  cols.take s.drive.bankCap ++
    ((cols.drop s.drive.bankCap).filter (s.markPin r)).take s.drive.markExtra

/-- R135, R138: the moves of a drive plan of a pin row as it would be formed now. -/
def State.planMoves (s : State) (r : Fin 128) : List Move :=
  ((List.finRange 4).flatMap (s.bankChoice r)).map fun c =>
    ⟨c, s.pulseFor r c, s.comp.target[r].getLsbD c.val⟩

/-- The drive plan of a pin row with given moves, under the settings that stand now (R137, R148). -/
def State.drivePlan (s : State) (r : Fin 128) (moves : List Move) : Plan where
  kind := .drive
  row := r
  moves := moves
  cost := planCost moves
  strokeTime := s.drive.strokeTime

/-- R172: the Planner's report names a zone: a TOUCHED zone's hold timer starts if it is stopped. -/
def Touch.startHold (t : Touch) (z : Fin 16) : Touch :=
  let zone := t.zones[z]
  if zone.state = .touched ∧ zone.hold = none then
    { t with zones := t.zones.set z { zone with hold := some t.holdLimit } }
  else t

/-- R137: when a plan is formed, the TOUCHED zones that hold deferred candidates of the row are named to the
Touch Unit. -/
def State.reportDeferred (s : State) (r : Fin 128) : State :=
  let held := s.deferred r
  let t0 := if held &&& halfColumns 0 = 0 then s.touch else s.touch.startHold (zoneAt (bandOfRow r) 0)
  let t1 := if held &&& halfColumns 1 = 0 then t0 else t0.startHold (zoneAt (bandOfRow r) 1)
  s.setTouch t1

/-! ### Starting and holding a plan (R139, R141) -/

/-- A stroke has started during the line visit in progress, if there is one (R159; log entry 12). -/
def Calendar.noteStart (c : Calendar) (kind : StrokeKind) : Calendar :=
  { c with
    visit := c.visit.map fun v => { v with started := true }
    quiet := match kind with
      | .drive => []
      | .survey => c.quiet }

/-- R141: a held plan starts: its cost is drawn and the drive is IN_FLIGHT. The pulses given are the plan's
moves. R159: a drive stroke that starts empties the quiet set. -/
def State.startStroke (s : State) (p : Plan) : State :=
  (s.setDrive { s.drive with cond := .inFlight p, level := s.drive.level - p.cost }).setCal
    (s.cal.noteStart p.kind)

/-- R139, R141: a plan is held: it starts at once if the level is at least its cost, and waits otherwise. -/
def State.holdPlan (s : State) (p : Plan) : State :=
  if p.cost ≤ s.drive.level then s.startStroke p
  else s.setDrive { s.drive with cond := .waitCharge p }

/-- R139: the Row Calendar asks for a drive stroke on a row. The answer says whether a plan is held; if not, the
drive stays in NO_PLAN. -/
def State.askDrive (s : State) (r : Fin 128) : State × Bool :=
  let t := s.reportDeferred r
  match s.planMoves r with
  | [] => (t.setDrive { t.drive with cond := .noPlan }, false)
  | m :: ms => (t.holdPlan (t.drivePlan r (m :: ms)), true)

/-- R139: the Row Calendar asks for a survey stroke on a row. -/
def State.askSurvey (s : State) (r : Fin 128) : State :=
  s.holdPlan (surveyPlan r s.drive.strokeTime)

end Sys2Proof.Machine
end

