-- ==== Sys2Proof/Machine/Scheduler.lean ====
section
/-! DEFINITION. The Row Calendar: the order of line visits, settling, surveys and waking, and the
re-formation of a waiting plan, which hands the row back to the calendar. -/

namespace Sys2Proof.Machine

/-! ### The order of visits (R153 to R156) -/

/-- The first and the last line of a slot's range (R153). -/
def CalendarSlot.range (c : CalendarSlot) (band : Fin 8) : Nat × Nat :=
  if c.follow then (4 * band.val, 4 * band.val + 3) else (c.first, c.last)

/-- R155: the line after the cursor in the slot's range, wrapping from the last line to the first. A cursor that a
change of reading band has left outside the range goes to the first line (log entry 11). -/
def CalendarSlot.nextCursor (c : CalendarSlot) (band : Fin 8) : Fin 32 :=
  let lo := (c.range band).1
  let hi := (c.range band).2
  let next := if lo ≤ c.cursor.val ∧ c.cursor.val < hi then c.cursor.val + 1 else lo
  Fin.ofNat 32 next

/-- R155: the next visit begins: it takes the current slot's cursor, which advances, and the visits left drop by
one. The calendar always has a current slot; with none, line 0 is taken. -/
def Calendar.beginVisit (c : Calendar) (band : Fin 8) : Calendar :=
  let line := ((c.slots[c.current]?).map CalendarSlot.cursor).getD 0
  { c with
    slots := c.slots.modify c.current fun sl => { sl with cursor := sl.nextCursor band }
    visitsLeft := c.visitsLeft - 1
    visit := some ⟨line, 0, 0, false⟩ }

/-- R155: a visit has ended: with no visits left, the turn passes to the next slot in list order. -/
def Calendar.passTurn (c : Calendar) : Calendar :=
  if c.visitsLeft = 0 then
    let next := if c.current + 1 < c.slots.length then c.current + 1 else 0
    { c with current := next, visitsLeft := ((c.slots[next]?).map CalendarSlot.count).getD 1 }
  else c

/-- R159: a line joins the quiet set if it is not already there. -/
def joinQuiet (q : List (Fin 32)) (line : Fin 32) : List (Fin 32) :=
  if q.contains line then q else q ++ [line]

/-! ### Line visits and settling (R158, R159) -/

/-- R159: the scheduler passes to IDLE and posts SETTLE. -/
def State.enterIdle (s : State) : State :=
  let t := s.setCal { s.cal with sched := .idle }
  t.post t.settleNotice

/-- R155, R159: the visit in progress ends: a quiet visit's line joins the quiet set, the order moves on, and a
quiet visit that fills the set brings the scheduler to IDLE. The answer says whether visits go on. -/
def State.endVisit (s : State) (v : LineVisit) : State × Bool :=
  let quiet := if v.started then s.cal.quiet else joinQuiet s.cal.quiet v.line
  let t := s.setCal { s.cal with visit := none, quiet := quiet }.passTurn
  if v.started = false ∧ quiet.length = 32 then (t.enterIdle, false) else (t, true)

/-- R158: the row on which the visit stands is done: the visit goes on to the next row, or ends after the
fourth. -/
def State.rowDone (s : State) (v : LineVisit) : State × Bool :=
  if v.row = 3 then s.endVisit v
  else (s.setCal { s.cal with visit := some { v with row := v.row + 1, strokes := 0 } }, true)

/-- One move of a DRIVING scheduler that holds no plan: the next visit begins, or the Planner is asked for the
row on which the visit stands. The answer says whether the scheduler goes on. -/
def State.calendarMove (s : State) : State × Bool :=
  match s.cal.visit with
  | none => (s.setCal (s.cal.beginVisit s.touch.band), true)
  | some v =>
    match s.askDrive (pinRow v.line v.row) with
    | (t, true) => (t, false)
    | (t, false) => t.rowDone v

/-- R158: the scheduler goes on until a plan is held or the quiet set is full. The bound on its moves is never
reached by a calendar that SET CALENDAR accepts (log entry 18). -/
def State.runCalendar : Nat → State → State
  | 0, s => s
  | n + 1, s =>
    match s.calendarMove with
    | (t, true) => State.runCalendar n t
    | (t, false) => t

/-- The scheduler goes on from a move whose answer is given. -/
def State.goOn (r : State × Bool) : State :=
  match r with
  | (t, true) => State.runCalendar Config.calendarFuel t
  | (t, false) => t

/-- R159, R161, R164, R165: the visits of a scheduler that has entered DRIVING: the quiet set is emptied, and the
kept line visit resumes or the next begins. -/
def State.driveOn (s : State) : State :=
  State.runCalendar Config.calendarFuel (s.setCal { s.cal with sched := .driving, quiet := [] })

/-- R159, R160: what the Row Calendar does when it is woken: a DRIVING scheduler empties its quiet set, an IDLE one
enters DRIVING, and the others do nothing. -/
def State.wake (s : State) : State :=
  match s.cal.sched with
  | .driving => s.setCal { s.cal with quiet := [] }
  | .idle => s.driveOn
  | _ => s

/-- R142, R158, R162: the Row Calendar is told that the row of a withdrawn plan has nothing to do. In DRIVING the
visit goes on, or the first visit of a new calendar begins (R154); in SURVEYING it does not advance. -/
def State.rowNothing (s : State) : State :=
  match s.cal.sched, s.cal.visit with
  | .driving, some v => State.goOn (s.rowDone v)
  | .driving, none => State.runCalendar Config.calendarFuel s
  | _, _ => s

/-! ### Re-forming a waiting plan (R142) -/

/-- R142: a drive plan in WAIT_CHARGE on a row that `rows` names is formed again; it starts, waits, or is
withdrawn. -/
def State.reform (s : State) (rows : Fin 128 → Bool) : State :=
  match s.drive.cond with
  | .waitCharge p =>
    if p.kind = .drive ∧ rows p.row = true then
      match s.askDrive p.row with
      | (t, true) => t
      | (t, false) => t.rowNothing
    else s
  | _ => s

/-! ### Surveys (R161) -/

/-- The lowest-numbered unknown pin row. -/
def PinField.lowestUnknown (p : PinField) : Option (Fin 128) :=
  (List.finRange 128).find? fun r => !p.known[r]

/-- R161: a scheduler in SURVEYING asks for a survey stroke on the lowest-numbered unknown row. -/
def State.requestSurvey (s : State) : State :=
  match s.pins.lowestUnknown with
  | some r => s.askSurvey r
  | none => s

/-- R164, R165: the scheduler leaves a state in which it asked for nothing: it surveys the unknown rows, or drives
when every row is known. `announce` is done between entering the state and its first request. -/
def State.takeUp (s : State) (announce : State → State) : State :=
  match s.pins.lowestUnknown with
  | some _ => (announce (s.setCal { s.cal with sched := .surveying })).requestSurvey
  | none => (announce (s.setCal { s.cal with sched := .driving })).driveOn

/-! ### Completions (R145, R158, R161 to R163) -/

/-- R158: the row of the visit in progress has had one more stroke: asked again below the limit, done at it. The
answer is the state before the next request and whether the visit stays on the row. -/
def State.countStroke (s : State) (v : LineVisit) : State × Bool :=
  if v.strokes + 1 < Config.strokesPerRow then
    (s.setCal { s.cal with visit := some { v with strokes := v.strokes + 1 } }, true)
  else s.rowDone v

/-- R158, R163: a completion in DRIVING. Under the hold flag the visit moves on as the stroke count asks, no
request follows, and the scheduler enters PAUSED. -/
def State.completeDriving (s : State) : State :=
  let r := match s.cal.visit with
    | some v => s.countStroke v
    | none => (s, true)
  if s.cal.hold then r.1.setCal { r.1.cal with sched := .paused } else State.goOn r

/-- R161 to R163: a completion in SURVEYING. When no row is unknown the survey is complete: the scheduler enters
DRIVING or PAUSED and posts DRIVE before any line visit. -/
def State.completeSurveying (s : State) : State :=
  match s.pins.lowestUnknown with
  | some _ => if s.cal.hold then s.setCal { s.cal with sched := .paused } else s.requestSurvey
  | none =>
    if s.cal.hold then (s.setCal { s.cal with sched := .paused }).postDrive
    else (s.setCal { s.cal with sched := .driving }).postDrive.driveOn

/-- R145: the Row Calendar is told that a stroke has completed. -/
def State.strokeDone (s : State) : State :=
  match s.cal.sched with
  | .driving => s.completeDriving
  | .surveying => s.completeSurveying
  | _ => s

end Sys2Proof.Machine
end

