-- ==== Sys2Proof/Machine/Recompose.lean ====
section
/-! DEFINITION. Recomposition, and what a changed target or a changed zone does to the blocks downstream. -/

namespace Sys2Proof.Machine

/-- The target image after the named lines are composed again (R97). -/
def State.newTarget (s : State) (lines : List (Fin 32)) : Vector PinRow 128 :=
  Vector.ofFn fun r => if lines.contains (lineOfRow r) then s.composeRow r else s.comp.target[r]

/-- The mark pins after the named lines are composed again (R97). -/
def State.newMarkPins (s : State) (lines : List (Fin 32)) : Vector PinRow 32 :=
  Vector.ofFn fun l => if lines.contains l then s.composeMarkPins l else s.comp.markPins[l]

/-- The pins whose target a new target image changes, by pin row. -/
def State.targetChanges (s : State) (target : Vector PinRow 128) : Vector PinRow 128 :=
  Vector.ofFn fun r => s.comp.target[r] ^^^ target[r]

/-- Whether pin number `a` of the attempt counts lies in a set of pins given by row. -/
def pinChanged (changes : Vector PinRow 128) (a : Nat) : Bool :=
  if h : a / 80 < 128 then (changes[a / 80]).getLsbD (a % 80) else false

/-- R109, R110: the named lines are composed again. The changed pins take their new targets, their attempt counts
become 0, a plan waiting on a changed row is formed again and the Row Calendar is woken. One trigger is one
recomposition of all its lines (log entry 9). -/
def State.recompose (s : State) (lines : List (Fin 32)) : State :=
  let target := s.newTarget lines
  let changes := s.targetChanges target
  let t := (s.setComp { s.comp with target := target, markPins := s.newMarkPins lines }).setPins
    { s.pins with attempts := storeDrop (pinChanged changes) s.pins.attempts }
  if changes = Vector.replicate 128 0 then t
  else (t.reform fun r => changes[r] != 0).wake

/-- All 32 lines. -/
def allLines : List (Fin 32) := List.finRange 32

/-- Line 31. -/
def statusLine : List (Fin 32) := [31]

/-- R18, R53, R55, R56, R89: after a change of entry `i`'s content or marks, the Compositor is told the lines if
the entry is SHOWN. -/
def State.tellLines (s : State) (i : Fin 48) (lines : List (Fin 32)) : State :=
  if s.dir.entries[i].state = .shown then s.recompose lines else s

/-- R156: the follow slot's cursor after a change of reading band. -/
def Calendar.followBand (c : Calendar) (band : Fin 8) : Calendar :=
  { c with slots := c.slots.map fun sl =>
      if sl.follow then { sl with cursor := firstLineOfBand band } else sl }

/-- R171, steps 2 to 5: the neighbours are told of a zone's new state, and of a new reading band if `bandChanged`
says so. -/
def State.zoneChanged (s : State) (z : Fin 16) (bandChanged : Bool) : State :=
  let s2 := s.recompose (s.zoneLines z)
  let s3 := s2.reform fun r => bandOfRow r == bandOfZone z
  let s4 := s3.wake
  let s5 := if bandChanged then s4.setCal (s4.cal.followBand s4.touch.band) else s4
  s5.postTouch

end Sys2Proof.Machine
end

