-- ==== Sys2Proof/Machine/Operands.lean ====
section
/-! DEFINITION. Reading the records of a command's payload and writing those of a response or a notice
(R184). A reader answers none where a value is out of range. -/

namespace Sys2Proof.Machine

/-! ### Numbers -/

/-- Two bytes, little-endian. -/
def word16 (lo hi : Byte) : BitVec 16 := hi ++ lo

/-- A 16-bit number in two bytes, little-endian. -/
def put16 (w : BitVec 16) : List Byte := [w.setWidth 8, (w >>> 8).setWidth 8]

/-- A count in one byte. -/
def put8 (n : Nat) : Byte := BitVec.ofNat 8 n

/-- A count in two bytes. -/
def putNat16 (n : Nat) : List Byte := put16 (BitVec.ofNat 16 n)

/-- A stream offset in four bytes (R184). R22 lets the offset count from 0 upward without a bound, and four bytes hold
it modulo 2^32: of an offset of 2^32 or more the low 32 bits are reported, which the manual leaves open (log entry
26). -/
def putNat32 (n : Nat) : List Byte :=
  [put8 n, put8 (n / 256), put8 (n / 65536), put8 (n / 16777216)]

/-- yes or no, on or off. -/
def putBool (b : Bool) : Byte := if b then 1 else 0

/-- Reads yes/no or on/off. -/
def readBool (b : Byte) : Option Bool :=
  if b = 0 then some false else if b = 1 then some true else none

/-- Reads a value from 0 to 15. -/
def readNibble (b : Byte) : Option (BitVec 4) := if b.toNat < 16 then some (b.setWidth 4) else none

/-- Reads an index below `n`. -/
def readBelow (n : Nat) (b : Byte) : Option (Fin n) :=
  if h : b.toNat < n then some ⟨b.toNat, h⟩ else none

/-! ### Readers of the records -/

/-- Reads a key: the document must lie from 0 to 15. -/
def readKey (d lo hi : Byte) : Option Key := (readNibble d).map fun doc => ⟨doc, word16 lo hi⟩

/-- Reads a kind. -/
def readKind (b : Byte) : Option Kind :=
  if b = 0 then some .text else if b = 1 then some .raw else none

/-- Reads a condition of codes 0 and 1 (R14, R184). -/
def readCondition (code lo hi : Byte) : Option Condition :=
  if code = 0 then some .unconditional else if code = 1 then some (.ifRevision (word16 lo hi)) else none

/-- Reads a commit condition, of codes 1, 2 and 3 (R184). -/
def readCommitCondition (code lo hi : Byte) : Option CommitCondition :=
  if code = 1 then some (.ifRevision (word16 lo hi)) else if code = 2 then some .newOnly
  else if code = 3 then some .any else none

/-- Reads a mark class (R49). -/
def readClass (b : Byte) : Option MarkClass :=
  if b = 0 then some .cursor else if b = 1 then some .bookmark else if b = 2 then some .highlight
  else if b = 3 then some .find else none

/-- Reads a mark's geometry and class, with owner SUPPLIED (R49, R52). -/
def readMark (cls line first length : Byte) : Option Mark :=
  match readClass cls, readBelow 32 line with
  | some c, some l =>
    if first.toNat < 40 ∧ 1 ≤ length.toNat ∧ length.toNat ≤ 40 ∧ first.toNat + length.toNat ≤ 40 then
      some ⟨c, .supplied, l, first.toNat, length.toNat⟩
    else none
  | _, _ => none

/-- Reads a class set: bits 4 to 7 name no class. -/
def readClassSet (b : Byte) : Option (BitVec 4) := if b.toNat < 16 then some (b.setWidth 4) else none

/-- Reads an owner set: bits 2 to 7 name no owner. -/
def readOwnerSet (b : Byte) : Option (BitVec 2) := if b.toNat < 4 then some (b.setWidth 2) else none

/-- Reads a line selector: a line, or ALL, given as the outer some of none. -/
def readLineSelector (b : Byte) : Option (Option (Fin 32)) :=
  if b = 0xFF then some none else (readBelow 32 b).map some

/-- Reads a control action. -/
def readAction (b : Byte) : Option ControlAction :=
  if b = 0 then some .lineEnd else if b = 1 then some .pageEnd else if b = 2 then some .repeatCell
  else if b = 3 then some .skip else if b = 4 then some .markOpen else if b = 5 then some .markClose
  else none

/-- The class code of a mark class. -/
def MarkClass.code : MarkClass → Nat
  | .cursor => 0
  | .bookmark => 1
  | .highlight => 2
  | .find => 3

/-- The owner code. -/
def Owner.code : Owner → Nat
  | .supplied => 0
  | .patron => 1

/-- Whether a mark's class and owner are both in the sets (R55, R84). -/
def Mark.inSets (m : Mark) (classes : BitVec 4) (owners : BitVec 2) : Bool :=
  classes.getLsbD m.cls.code && owners.getLsbD m.owner.code

/-- Reads a sweep descriptor and checks it by step 1 of R85. The document must lie from 0 to 15 whether or not it
is enabled (log entry 15); operands of absent actions are ignored. -/
def readDescriptor : List Byte → Option SweepDescriptor
  | [en, doc, f0, f1, l0, l1, m, v0, v1, acts, p, g, cs, os, d] => do
    let enable ← readBool en
    let document ← readNibble doc
    let mask ← readNibble m
    let w0 ← readNibble v0
    let w1 ← readNibble v1
    let first := word16 f0 f1
    let last := word16 l0 l1
    let pin ← if acts.getLsbD 1 then (readBool p).map some else some none
    let group ← if acts.getLsbD 2 then (readNibble g).map some else some none
    let clear ← if acts.getLsbD 3 then
        (match readClassSet cs, readOwnerSet os with
          | some a, some b => some (some (a, b))
          | _, _ => none)
      else some none
    let move ← if acts.getLsbD 4 then (readNibble d).map some else some none
    if acts.toNat < 32 ∧ acts ≠ 0 ∧ (acts.getLsbD 0 = true → acts = 1) ∧ first.toNat ≤ last.toNat then
      some ⟨if enable then some document else none, first, last, mask, w0, w1, acts.getLsbD 0,
        pin, group, clear, move⟩
    else none
  | _ => none

/-! ### Codes and records of the answers -/

/-- The status codes (R184). -/
def Status.code : Status → Byte
  | .ok => 0x00
  | .accepted => 0x01
  | .unknownCommand => 0x02
  | .badLength => 0x03
  | .badArgument => 0x04
  | .notFound => 0x05
  | .exists_ => 0x06
  | .stale => 0x07
  | .held => 0x08
  | .shownEntry => 0x09
  | .storeFull => 0x0A
  | .keyBusy => 0x0B
  | .noSlot => 0x0C
  | .slotState => 0x0D
  | .sweepBusy => 0x0E
  | .marksFull => 0x0F
  | .badCalendar => 0x10
  | .streamFault => 0x11
  | .noResponse => 0x12

/-- The codes of the entry states. -/
def EntryState.code : EntryState → Byte
  | .free => 0
  | .loading => 1
  | .ready => 2
  | .shown => 3

/-- The codes of the kinds. -/
def Kind.code : Kind → Byte
  | .text => 0
  | .raw => 1

/-- The codes of the navigation conditions. -/
def NavCondition.code : NavCondition → Byte
  | .settled => 0
  | .waitMiss => 1
  | .waitLoad => 2
  | .waitSweep => 3

/-- The codes of the shown causes. -/
def ShownCause.code : ShownCause → Byte
  | .nav => 0
  | .command => 1
  | .commit => 2

/-- The codes of the scheduler states. -/
def Scheduler.code : Scheduler → Byte
  | .surveying => 0
  | .driving => 1
  | .idle => 2
  | .paused => 3
  | .supplyLow => 4

/-- The codes of the supply monitor. -/
def Supply.code : Supply → Byte
  | .ok => 0
  | .low => 1

/-- The codes of the zone states. -/
def ZoneState.code : ZoneState → Byte
  | .clear => 0
  | .touched => 1
  | .expired => 2

/-- The codes of the stream errors. -/
def StreamError.code : StreamError → Byte
  | .badEscape => 1
  | .badOperand => 2
  | .timeout => 3

/-- The codes of the reset kinds. -/
def ResetKind.code : ResetKind → Byte
  | .powerOn => 0
  | .pin => 1
  | .command => 2

/-- The code of a slot's state. -/
def slotStateCode : Option LoadSlot → Byte
  | none => 0
  | some r => if r.complete then 2 else 1

/-- A key record. -/
def putKey (k : Key) : List Byte := k.doc.setWidth 8 :: put16 k.page

/-- A key record that may be absent: document 0xFF. The manual gives an absent key's page bytes no value: they are
free (log entry 7), `response` and `place` naming them. -/
def putKeyOr (response place : Nat) : Option Key → List Byte
  | some k => putKey k
  | none => [0xFF, Config.unstatedByte response place, Config.unstatedByte response (place + 1)]

/-- An index that may be absent, 0xFF then. -/
def putIndexOr : Option Nat → Byte
  | some n => put8 n
  | none => 0xFF

/-- A mark record. -/
def putMark (m : Mark) : List Byte :=
  [put8 m.cls.code, put8 m.owner.code, put8 m.line.val, put8 m.first, put8 m.length]

/-- The loading slot field of an entry's summary (R16). -/
def loadingSlotField (load : Decoder) (e : Entry) : Option (Fin 2) :=
  match e.state with
  | .loading => e.slot
  | .free => none
  | _ => e.key.bind load.slotOfKey

/-- R16, R184: the summary of entry `i`. -/
def putSummary (s : State) (i : Fin 48) : List Byte :=
  let e := s.dir.entries[i]
  [put8 i.val, e.state.code] ++ putKeyOr s.link.served (2 * i.val) e.key ++ [e.kind.code] ++ put16 e.revision ++
    [putBool e.pinned, e.group.setWidth 8, putBool e.held,
      putIndexOr ((loadingSlotField s.load e).map Fin.val), put8 e.marks.length] ++ e.marks.flatMap putMark

/-- The places of unstated bytes in a response, apart from those of the summaries (0 to 95). -/
def placeShownKey : Nat := 96
/-- The place of the miss record's key. -/
def placeMissKey : Nat := 98
/-- The place of a reclaimed key. -/
def placeReclaimedKey : Nat := 100
/-- The place of an IDLE sweep's progress. -/
def placeProgress : Nat := 102
/-- The places of a slot's key and stream offset. -/
def placeSlot (i : Fin 2) : Nat := 104 + 8 * i.val

/-- R71, R73, R188: the navigation state. -/
def putNavigation (s : State) : List Byte :=
  s.nav.document.setWidth 8 :: putKeyOr s.link.served placeShownKey s.nav.shownKey ++
    [putBool s.nav.wanted.isSome] ++ put16 (s.nav.wanted.getD 0) ++ [s.nav.cond.code, putBool s.nav.lock]

/-- R188: the group of a slot. -/
def putSlot (s : State) (i : Fin 2) : List Byte :=
  let n := s.link.served
  match s.load.slots[i] with
  | some r => slotStateCode (some r) :: putKey r.key ++ [put8 r.entry.val] ++ putNat32 r.offset
  | none => slotStateCode none :: putKeyOr n (placeSlot i) none ++ [0xFF] ++
      (List.range 4).map fun j => Config.unstatedByte n (placeSlot i + 2 + j)

/-- R188: the sweep group. -/
def putSweep (s : State) : List Byte :=
  match s.sweep with
  | some r => [1, put8 r.progress.val, put8 r.matched, put8 r.changed, put8 r.skippedShown, put8 r.collisions]
  | none => [0, Config.unstatedByte s.link.served placeProgress, 0, 0, 0, 0]

/-- R188: the payload of READ STATUS, group by group: drive, navigation, miss record, slots, sweep, touch, link. -/
def putStatus (s : State) : List Byte :=
  [s.cal.sched.code, putBool s.cal.hold, s.drive.supply.code] ++ putNat16 s.drive.level ++
    putNavigation s ++
    putKeyOr s.link.served placeMissKey s.nav.missKey ++ [putBool s.nav.missLocked] ++
    putSlot s 0 ++ putSlot s 1 ++
    putSweep s ++
    ((List.finRange 16).map fun z => s.touch.zones[z].state.code) ++ [put8 s.touch.band.val] ++
    [put8 s.link.notices.length, s.link.cause.code]

/-- A set of positions or columns in the RAW row layout of R4. -/
def putRow (x : PinRow) : List Byte := (List.range 10).map fun j => (x >>> (8 * j)).setWidth 8

/-- A fault record. -/
def putFault (f : FaultRecord) : List Byte := [put8 f.row.val, put8 f.col.val, if f.stuckUp then 0 else 1]

/-- The payload of a notice (R186). -/
def Notice.payload : Notice → List Byte
  | .miss k => putKey k
  | .streamFault _ e off => e.code :: putNat32 off
  | .sweepDone m c k x a => [put8 m, put8 c, put8 k, put8 x, putBool a]
  | .shown k c => putKey k ++ [c.code]
  | .key p n m k c => [put8 p, put8 n, put8 m, put8 k, put8 c]
  | .touch zones band => (zones.toList.map ZoneState.code) ++ [put8 band.val]
  | .pinFault n f => [put8 n, putBool f]
  | .drive sc su => [sc.code, su.code]
  | .settle d k => putNat16 d ++ putNat16 k

/-- R184: a notice frame. -/
def Notice.frame (n : Notice) : List Byte :=
  [put8 n.kindCode, put8 n.subject, put8 n.payload.length] ++ n.payload

/-- R186: the frame of kind NONE. -/
def noNoticeFrame : List Byte := [0, 0, 0]

/-- R184: a response frame. -/
def Response.frame (r : Response) : List Byte :=
  [r.tag, r.code, r.status.code] ++ putNat16 r.payload.length ++ r.payload

/-- R183: the frame when no response is held. -/
def noResponseFrame : List Byte := (Response.mk 0 0 .noResponse []).frame

/-- What a read transaction shifts out after the status byte: as much of the frame as is clocked, and 0x00 beyond
its end (R180). -/
def clockOut (frame : List Byte) (clocked : Nat) : List Byte :=
  frame.take clocked ++ List.replicate (clocked - frame.length) 0

end Sys2Proof.Machine
end

