-- ==== Sys2Proof/Machine/Respond.lean ====
section
/-! DEFINITION. Taking the buffered command: the checks of the Link Interface and the forming of the response
(R181 to R185, R190). -/

namespace Sys2Proof.Machine

/-- How an owner answers a command: the status and the payload its rule gives. -/
structure Reply where
  status : Status
  payload : List Byte
  deriving DecidableEq, Repr

/-- A refusal that carries nothing. -/
def Reply.bare (status : Status) : Reply := ⟨status, []⟩

/-- A refusal that carries the entry's current revision (R13, R41). -/
def Reply.withRevision (status : Status) (r : BitVec 16) : Reply := ⟨status, put16 r⟩

/-- R185: whether the catalogue allows a payload length for a command code. -/
def lengthAllowed (code : Byte) (n : Nat) : Bool :=
  if code = 0x10 then n == 9
  else if code = 0x11 then decide (2 ≤ n) && decide (n ≤ 257)
  else if code = 0x12 then n == 1 || n == 4
  else if code = 0x13 then n == 1
  else if code = 0x14 then n == 25
  else if code = 0x20 then n == 3
  else if code = 0x21 then n == 2
  else if code = 0x22 then decide (9 ≤ n) && decide (n ≤ 48)
  else if code = 0x23 then n == 6
  else if code = 0x24 then n == 5
  else if code = 0x28 then n == 10
  else if code = 0x29 then n == 9
  else if code = 0x30 then n == 15
  else if code = 0x38 then n == 3
  else if code = 0x3A then n == 1
  else if code = 0x40 then n == 33
  else if code = 0x41 then n == 13
  else if code = 0x48 then n == 17
  else if code = 0x50 then n == 4
  else if code = 0x59 then n == 3
  else if code = 0x5A then n == 1
  else if code = 0x60 then n == 5
  else if code = 0x70 then n == 2
  else if code ∈ [0x31#8, 0x39#8, 0x51#8, 0x52#8, 0x53#8, 0x58#8, 0x71#8, 0x7F#8] then n == 0
  else false

/-- R182, step 2: the declared length is 300 or less, equals the number of payload bytes clocked in, and is one the
command allows. -/
def lengthGood (code : Byte) (b : CommandBody) : Bool :=
  decide (b.declared.toNat ≤ Config.maxPayload) && b.declared.toNat == b.payload.length &&
    lengthAllowed code b.payload.length

/-- R181, R183: the buffer is emptied and the response takes the place of any response still held. -/
def State.respond (s : State) (code tag : Byte) (r : Reply) : State :=
  s.setLink { s.link with
    buffer := none
    response := some ⟨tag, code, r.status, r.payload⟩
    served := s.link.served + 1 }

/-- Whether the part can take this frame now: the RESET pin is not asserted (R189), and the frame is the one in
the command buffer, or the buffer is empty and the row stands for its transaction's end and its taking
together (log entry 3). -/
def State.takes (s : State) (code : Byte) (b : CommandBody) : Bool :=
  !s.resetPin && (s.link.buffer == none || s.link.buffer == some ⟨code, b⟩)

/-- R181 to R183: the buffered command of a code is taken or refused. `owner` is the rule of the block that owns
it, applied to the payload; a frame that fails R182 does not reach it. -/
def State.take (s : State) (code : Byte) (b : CommandBody)
    (owner : List Byte → State → State × Reply) : Host.Outcome State Fault Refusal :=
  if s.takes code b then
    if lengthGood code b then
      let r := owner b.payload s
      .next (r.1.respond code b.tag r.2)
    else .next (s.respond code b.tag (.bare .badLength))
  else .next s

/-- An owner's rule that always answers OK without a payload and has an effect. -/
def taken (s : State) : State × Reply := (s, ⟨.ok, []⟩)

end Sys2Proof.Machine
end

