-- ==== Sys2Proof/Machine/DisplayCommands.lean ====
section
/-! DEFINITION. The Compositor's commands and its timer (06): SET STATUS, SET GLYPHS, the blink timer. -/

namespace Sys2Proof.Machine

/-- R105, R107: whether a blink phase time is 0 or a multiple of 100 from 200 to 2000. -/
def blinkTimeGood (t : Nat) : Bool := t == 0 || (decide (200 ≤ t) && decide (t ≤ 2000) && t % 100 == 0)

/-- R107: the blink timer and phase after a SET STATUS of a blink phase time. -/
def Compositor.setBlink (c : Compositor) (time : Nat) : Compositor :=
  if time = 0 then { c with blinkTime := 0, blinkTimer := none, blinkOn := true }
  else if time = c.blinkTime then c
  else { c with blinkTime := time, blinkTimer := some time }

/-- R108: what follows a change of blink phase. -/
def State.blinkChanged (s : State) : State := s.recompose s.blinkLines

/-- R105: SET STATUS is taken. -/
def State.setStatus (s : State) (on : Bool) (time : Nat) (text : Vector Byte 30) : State :=
  let t := s.setComp ({ s.comp with statusOn := on, statusText := text }.setBlink time)
  let u := if t.comp.blinkOn = s.comp.blinkOn then t else t.blinkChanged
  if s.comp.statusOn || on then u.recompose statusLine else u

/-- R105: the rule of SET STATUS. -/
def setStatusRule (payload : List Byte) (s : State) : State × Reply :=
  match payload with
  | en :: t0 :: t1 :: cells =>
    match readBool en with
    | none => (s, .bare .badArgument)
    | some on =>
      if blinkTimeGood (word16 t0 t1).toNat then
        (s.setStatus on (word16 t0 t1).toNat (Vector.ofFn fun i => cells.getD i.val 0), ⟨.ok, []⟩)
      else (s, .bare .badArgument)
  | _ => (s, .bare .badLength)

/-- SET_STATUS. -/
def execSetStatus (b : CommandBody) (s : State) : Host.Outcome State Fault Refusal :=
  s.take 0x40 b setStatusRule

/-- R106: the glyph set of 13 patterns in the order of the payload. -/
def glyphsOf (patterns : List Byte) : Glyphs where
  numberSign := patterns.getD 0 0
  digits := Vector.ofFn fun i => patterns.getD (i.val + 1) 0
  settled := patterns.getD 11 0
  waiting := patterns.getD 12 0

/-- R106: SET GLYPHS is taken. -/
def State.setGlyphs (s : State) (g : Glyphs) : State :=
  let t := s.setComp { s.comp with glyphs := g }
  if s.comp.statusOn then t.recompose statusLine else t

/-- R106: the rule of SET GLYPHS. -/
def setGlyphsRule (payload : List Byte) (s : State) : State × Reply :=
  (s.setGlyphs (glyphsOf payload), ⟨.ok, []⟩)

/-- SET_GLYPHS. -/
def execSetGlyphs (b : CommandBody) (s : State) : Host.Outcome State Fault Refusal :=
  s.take 0x41 b setGlyphsRule

/-- BLINK_TIMER_EXPIRY: R107, R108. With the timer stopped no expiry comes. -/
def execBlinkTimerExpiry (s : State) : Host.Outcome State Fault Refusal :=
  if s.resetPin || s.comp.blinkTimer == none then .next s
  else .next (s.setComp { s.comp with blinkOn := !s.comp.blinkOn }).blinkChanged

end Sys2Proof.Machine
end

