-- ==== Sys2Proof/Machine/DriveCommands.lean ====
section
/-! DEFINITION. The commands and events of the drive (08) and of the Row Calendar (09). -/

namespace Sys2Proof.Machine

/-- R148: the ranges of the four settings. -/
def driveSettingsGood (strokeTime refillRate bankCap markExtra : Nat) : Bool :=
  decide (8 ≤ strokeTime) && decide (strokeTime ≤ 32) && decide (20 ≤ refillRate) &&
    decide (refillRate ≤ 200) && decide (1 ≤ bankCap) && decide (bankCap ≤ 20) && decide (markExtra ≤ 4)

/-- R148: the rule of SET DRIVE. -/
def setDriveRule (payload : List Byte) (s : State) : State × Reply :=
  match payload with
  | [st, rate, cap, extra] =>
    if driveSettingsGood st.toNat rate.toNat cap.toNat extra.toNat then
      let t := s.setDrive { s.drive with
        strokeTime := st.toNat, refillRate := rate.toNat, bankCap := cap.toNat, markExtra := extra.toNat }
      (t.reform fun _ => true, ⟨.ok, []⟩)
    else (s, .bare .badArgument)
  | _ => (s, .bare .badLength)

/-- SET_DRIVE. -/
def execSetDrive (b : CommandBody) (s : State) : Host.Outcome State Fault Refusal :=
  s.take 0x50 b setDriveRule

/-- Whether a stroke is in flight. -/
def DriveCondition.flying : DriveCondition → Bool
  | .inFlight _ => true
  | _ => false

/-- R163: PAUSE DRIVE is taken. -/
def State.pauseDrive (s : State) : State :=
  let t := s.setCal { s.cal with hold := true }
  match s.cal.sched with
  | .idle => t.setCal { t.cal with sched := .paused }
  | .surveying | .driving =>
    if s.drive.cond.flying then t
    else (t.setDrive { t.drive with cond := .noPlan }).setCal { t.cal with sched := .paused }
  | .paused | .supplyLow => t

/-- R163: the rule of PAUSE DRIVE. -/
def pauseDriveRule (_payload : List Byte) (s : State) : State × Reply := taken s.pauseDrive

/-- PAUSE_DRIVE. -/
def execPauseDrive (b : CommandBody) (s : State) : Host.Outcome State Fault Refusal :=
  s.take 0x51 b pauseDriveRule

/-- R164: RESUME DRIVE is taken. -/
def State.resumeDrive (s : State) : State :=
  let t := s.setCal { s.cal with hold := false }
  match s.cal.sched with
  | .paused => t.takeUp id
  | .idle => t.wake
  | .surveying | .driving | .supplyLow => t

/-- R164: the rule of RESUME DRIVE. -/
def resumeDriveRule (_payload : List Byte) (s : State) : State × Reply := taken s.resumeDrive

/-- RESUME_DRIVE. -/
def execResumeDrive (b : CommandBody) (s : State) : Host.Outcome State Fault Refusal :=
  s.take 0x52 b resumeDriveRule

/-- R115: every pin row becomes unknown. -/
def PinField.allUnknown (p : PinField) : PinField := { p with known := Vector.replicate 128 false }

/-- R162: SURVEY is taken. In DRIVING the scheduler enters SURVEYING first, and a plan waiting for charge is then
formed again on an unknown row and withdrawn. -/
def State.surveyAll (s : State) : State :=
  let t := s.setPins s.pins.allUnknown
  match s.cal.sched with
  | .driving =>
    let u := (t.setCal { t.cal with sched := .surveying }).reform fun _ => true
    if u.drive.cond.flying then u else u.requestSurvey
  | .idle => (t.setCal { t.cal with sched := .surveying }).requestSurvey
  | .surveying | .paused | .supplyLow => t

/-- R162: the rule of SURVEY. -/
def surveyRule (_payload : List Byte) (s : State) : State × Reply := taken s.surveyAll

/-- SURVEY. -/
def execSurvey (b : CommandBody) (s : State) : Host.Outcome State Fault Refusal :=
  s.take 0x53 b surveyRule

/-- A slot as SET CALENDAR gives it (R154). -/
structure SlotArgs where
  first : Nat
  last : Nat
  count : Nat
  follow : Nat
  deriving DecidableEq, Repr

/-- The slots of a SET CALENDAR payload, in list order. -/
def readSlotArgs : List Byte → List SlotArgs
  | f :: l :: c :: fo :: rest => ⟨f.toNat, l.toNat, c.toNat, fo.toNat⟩ :: readSlotArgs rest
  | _ => []

/-- R154: whether a slot passes the tests on slots. `index` is its number. A follow value is no or yes (log entry
14). -/
def slotGood (index : Nat) (a : SlotArgs) : Bool :=
  decide (1 ≤ a.count) && decide (a.count ≤ 8) && decide (a.follow ≤ 1) && (a.follow == 0 || index == 0) &&
    (a.follow == 1 || (decide (a.first ≤ 31) && decide (a.last ≤ 31) && decide (a.first ≤ a.last)))

/-- R154: whether a line lies in the range of a non-follow slot. -/
def lineCovered (slots : List SlotArgs) (line : Nat) : Bool :=
  slots.any fun a => a.follow == 0 && decide (a.first ≤ line) && decide (line ≤ a.last)

/-- R154: whether a calendar is accepted: 1 to 4 slots, each good, and every line from 0 to 31 in the range of some
non-follow slot, so that there is one. -/
def calendarGood (slots : List SlotArgs) : Bool :=
  decide (1 ≤ slots.length) && decide (slots.length ≤ 4) &&
    (slots.zipIdx.all fun p => slotGood p.2 p.1) && (List.range 32).all (lineCovered slots)

/-- R154: a slot of the new calendar, with its cursor. -/
def newSlot (band : Fin 8) (a : SlotArgs) : CalendarSlot :=
  ⟨a.first, a.last, a.count, a.follow == 1,
    if a.follow = 1 then firstLineOfBand band else Fin.ofNat 32 a.first⟩

/-- R154: the calendar is replaced, and the line visit in progress is discarded. -/
def Calendar.replace (c : Calendar) (band : Fin 8) (slots : List SlotArgs) : Calendar :=
  { c with
    slots := slots.map (newSlot band)
    current := 0
    visitsLeft := (slots[0]?.map SlotArgs.count).getD 1
    visit := none }

/-- R154: the rule of SET CALENDAR. -/
def setCalendarRule (payload : List Byte) (s : State) : State × Reply :=
  match payload with
  | [] => (s, .bare .badLength)
  | n :: rest =>
    let slots := (readSlotArgs rest).take n.toNat
    if n.toNat ≤ 4 ∧ calendarGood slots = true then
      (s.setCal (s.cal.replace s.touch.band slots), ⟨.ok, []⟩)
    else (s, .bare .badCalendar)

/-- SET_CALENDAR. -/
def execSetCalendar (b : CommandBody) (s : State) : Host.Outcome State Fault Refusal :=
  s.take 0x48 b setCalendarRule

/-- R141: a plan in WAIT_CHARGE starts if the level has reached its cost. -/
def State.startIfCharged (s : State) : State :=
  match s.drive.cond with
  | .waitCharge p => if p.cost ≤ s.drive.level then s.startStroke p else s
  | _ => s

/-- REFILL_UNIT_ARRIVAL: R140, R141. While the supply is low no unit comes. -/
def execRefillUnitArrival (s : State) : Host.Outcome State Fault Refusal :=
  if s.resetPin || s.drive.supply == .low then .next s
  else .next (s.setDrive { s.drive with
    level := min Config.reservoirCapacity (s.drive.level + 1) }).startIfCharged

/-- STROKE_START: R141. Every event that brings the level to the cost of a plan, or the cost to the level, starts the
stroke in that event, so that the row alone finds a plan to start only in a state where none has (log entry
8). -/
def execStrokeStart (s : State) : Host.Outcome State Fault Refusal :=
  if s.resetPin then .next s else .next s.startIfCharged

/-- R146: the row of a stroke in flight becomes unknown, its result being discarded. -/
def State.discardStroke (s : State) : State :=
  match s.drive.cond with
  | .inFlight p => s.setPins { s.pins with known := s.pins.known.set p.row false }
  | _ => s

/-- R146: the supply is lost. -/
def State.supplyLost (s : State) : State :=
  let t := s.discardStroke
  ((t.setDrive { t.drive with cond := .noPlan, level := 0, supply := .low }).setCal
    { t.cal with sched := .supplyLow }).postDrive

/-- SUPPLY_FALL: R146. The comparator reads low from now on; a fall while SUPPLY_LOW changes nothing else, and
while the RESET pin is asserted the part takes no event (log entry 5). -/
def execSupplyFall (s : State) : Host.Outcome State Fault Refusal :=
  let t := { s with supplyPin := .low }
  if s.resetPin || s.drive.supply == .low then .next t else .next t.supplyLost

/-- R147, R165: the supply returns: the scheduler leaves SUPPLY_LOW, and DRIVE is posted with the state it enters
before its first request. -/
def State.supplyBack (s : State) : State :=
  let t := s.setDrive { s.drive with supply := .ok }
  if s.cal.hold then (t.setCal { t.cal with sched := .paused }).postDrive else t.takeUp State.postDrive

/-- SUPPLY_RISE: R147. -/
def execSupplyRise (s : State) : Host.Outcome State Fault Refusal :=
  let t := { s with supplyPin := .ok }
  if s.resetPin || s.drive.supply == .ok then .next t else .next t.supplyBack

end Sys2Proof.Machine
end

