-- ==== Sys2Proof/Machine/EntryCommands.lean ====
section
/-! DEFINITION. The commands on entries (01) and on marks (03). -/

namespace Sys2Proof.Machine

/-- R14: whether a condition holds for a revision. -/
def Condition.holds (c : Condition) (revision : BitVec 16) : Bool :=
  match c with
  | .unconditional => true
  | .ifRevision r => revision == r

/-- R13, steps 2 to 6: the entry that a command on a key may change, or the refusal. -/
def State.checkEntry (s : State) (k : Key) (kindSuits : Kind → Bool) (stateSuits : EntryState → Bool)
    (cond : Condition) : Except Reply (Fin 48) :=
  match s.dir.visibleEntry k with
  | none => .error (.bare .notFound)
  | some i =>
    let e := s.dir.entries[i]
    if !kindSuits e.kind then .error (.bare .badArgument)
    else if e.held then .error (.withRevision .held e.revision)
    else if !stateSuits e.state then .error (.withRevision .shownEntry e.revision)
    else if !cond.holds e.revision then .error (.withRevision .stale e.revision)
    else .ok i

/-- A kind or a state always suits. -/
def anySuits {α : Type} (_ : α) : Bool := true

/-- R15: the rule of QUERY ENTRY. -/
def queryEntryRule (payload : List Byte) (s : State) : State × Reply :=
  match payload with
  | [d, p0, p1] =>
    match readKey d p0 p1 with
    | none => (s, .bare .badArgument)
    | some k =>
      match s.dir.lookup k with
      | .visible i => (s, ⟨.ok, putSummary s i⟩)
      | .held i => (s, ⟨.ok, putSummary s i⟩)
      | .loading slot => (s, ⟨.notFound, [putBool true, putIndexOr (slot.map Fin.val)]⟩)
      | .absent => (s, ⟨.notFound, [putBool false, 0xFF]⟩)
  | _ => (s, .bare .badLength)

/-- QUERY_ENTRY. -/
def execQueryEntry (b : CommandBody) (s : State) : Host.Outcome State Fault Refusal :=
  s.take 0x20 b queryEntryRule

/-- R17: as many whole summaries, from the front, as fit in `room` bytes. -/
def fitSummaries (room : Nat) : List (List Byte) → List (List Byte)
  | [] => []
  | x :: rest => if x.length ≤ room then x :: fitSummaries (room - x.length) rest else []

/-- R17: the summaries of `count` entries from `first` on. -/
def State.summaries (s : State) (first count : Nat) : List (List Byte) :=
  ((List.finRange 48).filter fun i => decide (first ≤ i.val) && decide (i.val < first + count)).map
    (putSummary s)

/-- R17: the rule of LIST ENTRIES. -/
def listEntriesRule (payload : List Byte) (s : State) : State × Reply :=
  match payload with
  | [first, count] =>
    if first.toNat ≤ 47 ∧ 1 ≤ count.toNat ∧ count.toNat ≤ 48 ∧ first.toNat + count.toNat ≤ 48 then
      let fit := fitSummaries (Config.maxPayload - 1) (s.summaries first.toNat count.toNat)
      (s, ⟨.ok, put8 fit.length :: fit.flatten⟩)
    else (s, .bare .badArgument)
  | _ => (s, .bare .badLength)

/-- LIST_ENTRIES. -/
def execListEntries (b : CommandBody) (s : State) : Host.Outcome State Fault Refusal :=
  s.take 0x21 b listEntriesRule

/-- R18: cells are written from `first` on in a line of TEXT entry `i`, and its revision advances. -/
def Directory.patch (d : Directory) (i : Fin 48) (line : Fin 32) (first : Nat) (cells : List Byte) : Directory :=
  { d.setEntry i { d.entries[i] with revision := d.entries[i].revision + 1 } with
    frames := writeFrameRun d.frames i (Config.cellsPerLine * line.val + first) cells }

/-- R18: the rule of PATCH CELLS. -/
def patchCellsRule (payload : List Byte) (s : State) : State × Reply :=
  match payload with
  | d :: p0 :: p1 :: c :: r0 :: r1 :: ln :: first :: cells =>
    match readKey d p0 p1, readCondition c r0 r1, readBelow 32 ln with
    | some k, some cond, some line =>
      if first.toNat < 40 ∧ 1 ≤ cells.length ∧ first.toNat + cells.length ≤ 40 then
        match s.checkEntry k (· == .text) anySuits cond with
        | .error r => (s, r)
        | .ok i =>
          ((s.setDir (s.dir.patch i line first.toNat cells)).tellLines i [line],
            ⟨.ok, put16 (s.dir.entries[i].revision + 1)⟩)
      else (s, .bare .badArgument)
    | _, _, _ => (s, .bare .badArgument)
  | _ => (s, .bare .badLength)

/-- PATCH_CELLS. -/
def execPatchCells (b : CommandBody) (s : State) : Host.Outcome State Fault Refusal :=
  s.take 0x22 b patchCellsRule

/-- R19: the rule of RETIRE. -/
def retireRule (payload : List Byte) (s : State) : State × Reply :=
  match payload with
  | [d, p0, p1, c, r0, r1] =>
    match readKey d p0 p1, readCondition c r0 r1 with
    | some k, some cond =>
      match s.checkEntry k anySuits (· == .ready) cond with
      | .error r => (s, r)
      | .ok i => (s.setDir (s.dir.freeEntry i), ⟨.ok, put8 i.val :: put16 s.dir.entries[i].revision⟩)
    | _, _ => (s, .bare .badArgument)
  | _ => (s, .bare .badLength)

/-- RETIRE. -/
def execRetire (b : CommandBody) (s : State) : Host.Outcome State Fault Refusal :=
  s.take 0x23 b retireRule

/-- R20: both fields of entry `i` are set, and the reclaim queue follows. -/
def Directory.assign (d : Directory) (i : Fin 48) (pinned : Bool) (group : BitVec 4) : Directory :=
  (d.setEntry i { d.entries[i] with group := group }).setPinned i pinned

/-- R20: the rule of SET ENTRY. -/
def setEntryRule (payload : List Byte) (s : State) : State × Reply :=
  match payload with
  | [d, p0, p1, pin, grp] =>
    match readKey d p0 p1, readBool pin, readNibble grp with
    | some k, some pinned, some group =>
      match s.checkEntry k anySuits anySuits .unconditional with
      | .error r => (s, r)
      | .ok i => (s.setDir (s.dir.assign i pinned group), ⟨.ok, put16 s.dir.entries[i].revision⟩)
    | _, _, _ => (s, .bare .badArgument)
  | _ => (s, .bare .badLength)

/-- SET_ENTRY. -/
def execSetEntry (b : CommandBody) (s : State) : Host.Outcome State Fault Refusal :=
  s.take 0x24 b setEntryRule

/-- The directory with entry `i`'s mark list replaced and its revision advanced (R5). -/
def Directory.setMarks (d : Directory) (i : Fin 48) (marks : List Mark) : Directory :=
  d.setEntry i { d.entries[i] with marks := marks, revision := d.entries[i].revision + 1 }

/-- R53: the answer to ADD MARK. -/
def addMarkReply (revision : BitVec 16) (present : Bool) (count : Nat) : Reply :=
  ⟨.ok, put16 revision ++ [putBool present, put8 count]⟩

/-- R52, R53: the rule of ADD MARK. -/
def addMarkRule (payload : List Byte) (s : State) : State × Reply :=
  match payload with
  | [d, p0, p1, c, r0, r1, cls, ln, first, len] =>
    match readKey d p0 p1, readCondition c r0 r1, readMark cls ln first len with
    | some k, some cond, some m =>
      match s.checkEntry k anySuits anySuits cond with
      | .error r => (s, r)
      | .ok i =>
        let e := s.dir.entries[i]
        if e.marks.contains m then (s, addMarkReply e.revision true e.marks.length)
        else if e.marks.length < Config.maxMarks then
          ((s.setDir (s.dir.setMarks i (e.marks ++ [m]))).tellLines i [m.line],
            addMarkReply (e.revision + 1) false (e.marks.length + 1))
        else (s, .withRevision .marksFull e.revision)
    | _, _, _ => (s, .bare .badArgument)
  | _ => (s, .bare .badLength)

/-- ADD_MARK. -/
def execAddMark (b : CommandBody) (s : State) : Host.Outcome State Fault Refusal :=
  s.take 0x28 b addMarkRule

/-- R55: whether a mark is on the selected line, or the selector is ALL. -/
def onSelectedLine (sel : Option (Fin 32)) (m : Mark) : Bool :=
  match sel with
  | none => true
  | some l => m.line == l

/-- R54, R55: the rule of DROP MARKS. -/
def dropMarksRule (payload : List Byte) (s : State) : State × Reply :=
  match payload with
  | [d, p0, p1, c, r0, r1, cs, os, sel] =>
    match readKey d p0 p1, readCondition c r0 r1, readClassSet cs, readOwnerSet os, readLineSelector sel with
    | some k, some cond, some classes, some owners, some line =>
      match s.checkEntry k anySuits anySuits cond with
      | .error r => (s, r)
      | .ok i =>
        let e := s.dir.entries[i]
        let matching := fun m : Mark => m.inSets classes owners && onSelectedLine line m
        let removed := e.marks.filter matching
        let kept := e.marks.filter fun m => !matching m
        if removed = [] then (s, ⟨.ok, put8 0 :: put16 e.revision ++ [put8 e.marks.length]⟩)
        else
          ((s.setDir (s.dir.setMarks i kept)).tellLines i (removed.map Mark.line),
            ⟨.ok, put8 removed.length :: put16 (e.revision + 1) ++ [put8 kept.length]⟩)
    | _, _, _, _, _ => (s, .bare .badArgument)
  | _ => (s, .bare .badLength)

/-- DROP_MARKS. -/
def execDropMarks (b : CommandBody) (s : State) : Host.Outcome State Fault Refusal :=
  s.take 0x29 b dropMarksRule

end Sys2Proof.Machine
end

