-- ==== Sys2Proof/Machine/Navigator.lean ====
section
/-! DEFINITION. The Navigation Unit's operations: showing an entry, the evaluation of the wanted key, the miss
record, and what it does when other blocks tell it of a key. -/

namespace Sys2Proof.Machine

/-- The wanted key, none when the wanted page is none (R65). -/
def Navigation.wantedKey (n : Navigation) : Option Key := n.wanted.map fun p => ⟨n.document, p⟩

/-- Whether navigation is in a waiting condition (R66). -/
def Navigation.waiting (n : Navigation) : Bool := n.cond != .settled

/-- R7: the directory after entry `i` is shown: it becomes SHOWN and leaves the reclaim queue, and an entry that
was SHOWN becomes READY and joins the tail unless it is pinned. -/
def Directory.showEntry (d : Directory) (i : Fin 48) : Directory :=
  let old := d.shownEntry
  let d1 := (d.setEntry i { d.entries[i] with state := .shown }).leaveQueue i
  match old with
  | some j =>
    if j = i then d else (d1.setEntry j { d1.entries[j] with state := .ready }).joinQueue j
  | none => d1

/-- R7, R109: navigation shows entry `i`; if that changes the shown entry, all 32 lines are composed again. -/
def State.showEntry (s : State) (i : Fin 48) : State :=
  if s.dir.entries[i].state = .shown then s
  else (s.setDir (s.dir.showEntry i)).recompose allLines

/-- R66, R104, R109: the Compositor is told when the condition has passed between SETTLED and a waiting one; line
31 is composed again if the status line is enabled. -/
def State.tellCondition (s : State) (before : NavCondition) : State :=
  if ((before = .settled) ≠ (s.nav.cond = .settled)) ∧ s.comp.statusOn = true then s.recompose statusLine
  else s

/-- R68: an unlocked miss record captures an absent key, and posts MISS. -/
def State.captureMiss (s : State) (k : Key) : State :=
  if s.nav.missLocked then s
  else (s.setNav { s.nav with missKey := some k, missLocked := true }).post (.miss k)

/-- R67: the wanted key is evaluated. Navigation makes its own changes and posts its notice, and then tells the
Compositor of a change of condition (log entry 10). -/
def State.evaluate (s : State) (cause : ShownCause) : State :=
  match s.nav.wantedKey with
  | none => s
  | some k =>
    let t := match s.dir.lookup k with
      | .visible i =>
        let u := s.showEntry i
        (u.setNav { u.nav with shownKey := some k, cond := .settled }).post (.shown k cause)
      | .held _ => s.setNav { s.nav with cond := .waitSweep }
      | .loading _ => s.setNav { s.nav with cond := .waitLoad }
      | .absent => (s.setNav { s.nav with cond := .waitMiss }).captureMiss k
    t.tellCondition s.nav.cond

/-- R69, R70, R72: the wanted page is set and its key is evaluated. -/
def State.wantPage (s : State) (page : BitVec 16) (cause : ShownCause) : State :=
  (s.setNav { s.nav with wanted := some page }).evaluate cause

/-- R74, step 1: whether the miss record is locked on a key. -/
def Navigation.lockedOn (n : Navigation) (k : Key) : Bool := n.missLocked && n.missKey == some k

/-- R74: navigation is told that a committed key is visible. -/
def State.keyCommitted (s : State) (k : Key) : State :=
  let unlocked := s.nav.lockedOn k
  let wanted := s.nav.wantedKey == some k
  let t := if unlocked then s.setNav { s.nav with missLocked := false } else s
  if t.nav.waiting && (wanted || unlocked) then t.evaluate (if wanted then .commit else .nav) else t

/-- R75: navigation is told that a load of a key has ended without a commit. -/
def State.loadEnded (s : State) (k : Key) : State :=
  if s.nav.waiting && s.nav.wantedKey == some k then s.evaluate .nav else s

/-- R76: navigation is told of a released entry that kept its key or was retired. -/
def State.keyReleased (s : State) (before : Key) : State :=
  if s.nav.waiting && s.nav.wantedKey == some before then s.evaluate .nav else s

/-- R77: navigation is told that a sweep visit has moved an entry from key `before` to key `after`; `shown` says
that it is the SHOWN entry. -/
def State.keyMoved (s : State) (before after : Key) (shown : Bool) : State :=
  let wasWanted := s.nav.wantedKey == some before
  let newDocument := shown && s.nav.document != after.doc
  let s1 := if shown then s.setNav { s.nav with shownKey := some after, document := after.doc } else s
  let unlocked := s1.nav.lockedOn after
  let s2 := if unlocked then s1.setNav { s1.nav with missLocked := false } else s1
  if s2.nav.waiting && (wasWanted || s2.nav.wantedKey == some after || unlocked || newDocument) then
    s2.evaluate .nav
  else s2

/-- R69: a page step. `page` is the wanted page and `next` the clamped page the key asks for. -/
def State.pageStep (s : State) (next : BitVec 16 → BitVec 16) : State :=
  match s.nav.wanted with
  | none => s
  | some p => if s.nav.lock then s else if next p = p then s else s.wantPage (next p) .nav

/-- The page after NEXT, clamped at 65535 (R69). -/
def nextPage (p : BitVec 16) : BitVec 16 := if p = 0xFFFF then p else p + 1
/-- The page after PREV, clamped at 0 (R69). -/
def prevPage (p : BitVec 16) : BitVec 16 := if p = 0 then p else p - 1

/-- R70: the pages of the seek set: the visible entries, not HELD, of the document, that carry a BOOKMARK. -/
def Directory.seekPages (d : Directory) (doc : BitVec 4) : List (BitVec 16) :=
  (List.finRange 48).filterMap fun i =>
    let e := d.entries[i]
    match e.key with
    | some k =>
      if e.visible && !e.held && k.doc == doc && e.marks.any (fun m => m.cls == .bookmark) then some k.page
      else none
    | none => none

/-- The smallest page of a list. -/
def smallestPage : List (BitVec 16) → Option (BitVec 16)
  | [] => none
  | p :: rest =>
    match smallestPage rest with
    | none => some p
    | some q => if p.toNat ≤ q.toNat then some p else some q

/-- R70: the page a seek picks from the seek set: the smallest above the wanted page, or else the smallest. -/
def seekPick (pages : List (BitVec 16)) (wanted : BitVec 16) : Option (BitVec 16) :=
  match smallestPage (pages.filter fun p => wanted.toNat < p.toNat) with
  | some p => some p
  | none => smallestPage pages

/-- R70: a bookmark seek. -/
def State.seek (s : State) : State :=
  match s.nav.wanted with
  | none => s
  | some p =>
    if s.nav.lock then s
    else match seekPick (s.dir.seekPages s.nav.document) p with
      | some q => s.wantPage q .nav
      | none => s

/-- R56: the patron bookmark of a reading band. -/
def patronBookmark (band : Fin 8) : Mark := ⟨.bookmark, .patron, firstLineOfBand band, 0, 40⟩

/-- R56: the mark list after a toggle of a mark, none when it is absent and the list is full. -/
def toggleMark (marks : List Mark) (m : Mark) : Option (List Mark) :=
  if marks.contains m then some (marks.filter (· ≠ m))
  else if marks.length < Config.maxMarks then some (marks ++ [m])
  else none

/-- R56, R57: a registered MARK press. -/
def State.markPress (s : State) : State :=
  match s.dir.shownEntry with
  | none => s
  | some i =>
    let e := s.dir.entries[i]
    if e.held || e.kind == .raw || s.nav.lock then s
    else
      match toggleMark e.marks (patronBookmark s.touch.band) with
      | none => s
      | some marks =>
        (s.setDir (s.dir.setEntry i { e with marks := marks, revision := e.revision + 1 })).tellLines i
          [firstLineOfBand s.touch.band]

/-- R64: a registered press: KEY is posted with a count of 1 for the key, and then the key's action is carried
out. -/
def State.pressKey (s : State) (k : PatronKey) : State :=
  match k with
  | .prev => (s.post (.key 1 0 0 0 0)).pageStep prevPage
  | .next => (s.post (.key 0 1 0 0 0)).pageStep nextPage
  | .mark => (s.post (.key 0 0 1 0 0)).markPress
  | .seek => (s.post (.key 0 0 0 1 0)).seek
  | .call => s.post (.key 0 0 0 0 1)

/-- R63: a debouncer after a sample. -/
def Debouncer.sample (d : Debouncer) (down : Bool) : Debouncer :=
  if down = d.pressed then { d with run := 0 }
  else if d.run < 2 then { d with run := d.run + 1 }
  else ⟨down, 0⟩

/-- R63: whether a sample registers a press. -/
def Debouncer.presses (d : Debouncer) (down : Bool) : Bool := !d.pressed && down && decide (2 ≤ d.run)

end Sys2Proof.Machine
end

