-- ==== Sys2Proof/Machine/StreamDecoder.lean ====
section
/-! DEFINITION. The Stream Decoder's operations: the decoding of a page stream (R28 to R38), fatal stream
errors (R39) and the end of a load (R42 to R46). -/

namespace Sys2Proof.Machine

/-- What a stream works on: its slot's record, the LOADING entry's mark list, and the frames. -/
structure StreamWork where
  slot : LoadSlot
  marks : List Mark
  frames : List Host.Cell
  deriving DecidableEq, Repr

/-- R36: a closed mark is offered to the mark list: not recorded when it has length 0 or is already there, counted
as dropped when the list is full, and appended otherwise. -/
def StreamWork.offer (w : StreamWork) (m : Mark) : StreamWork :=
  if m.length = 0 ∨ w.marks.contains m = true then w
  else if Config.maxMarks ≤ w.marks.length then
    { w with slot := { w.slot with dropped := min 255 (w.slot.dropped + 1) } }
  else { w with marks := w.marks ++ [m] }

/-- R35, R36: an open mark is closed at cell `cell` of its line. -/
def StreamWork.closeMark (w : StreamWork) (cell : Nat) : StreamWork :=
  match w.slot.openMark with
  | none => w
  | some o =>
    StreamWork.offer { w with slot := { w.slot with openMark := none } }
      ⟨o.cls, .supplied, Fin.ofNat 32 o.line, o.cell, cell - o.cell⟩

/-- R28, R36, R37: the write position of a TEXT stream moves to `target`, a position on the same line or at the
start of a later one. Leaving the line closes an open mark at cell 40; reaching position 1280 ends the page. -/
def StreamWork.moveTo (w : StreamWork) (target : Nat) : StreamWork :=
  let leaves := w.slot.position / Config.cellsPerLine ≠ target / Config.cellsPerLine
  let w1 := if leaves then w.closeMark Config.cellsPerLine else w
  { w1 with slot := { w1.slot with
      position := target
      complete := decide (Config.frameBytes ≤ target) } }

/-- R28: the write position advances by one cell. -/
def StreamWork.advance (w : StreamWork) : StreamWork := w.moveTo (w.slot.position + 1)

/-- R28: a cell byte is written at the write position, which advances. -/
def StreamWork.putCell (w : StreamWork) (b : Byte) : StreamWork :=
  StreamWork.advance { w with frames := writeFrame w.frames w.slot.entry w.slot.position b }

/-- R31: `n` cells from `from` on are blanked. -/
def blankCells (m : List Host.Cell) (i : Fin 48) (start n : Nat) : List Host.Cell :=
  writeFrameRun m i start (List.replicate n 0)

/-- R31: LINE_END blanks the rest of the line and moves to the next one. -/
def StreamWork.lineEnd (w : StreamWork) : StreamWork :=
  let next := (w.slot.position / Config.cellsPerLine + 1) * Config.cellsPerLine
  StreamWork.moveTo { w with
    frames := blankCells w.frames w.slot.entry w.slot.position (next - w.slot.position) } next

/-- R31: PAGE_END blanks the rest of the page and ends it. -/
def StreamWork.pageEnd (w : StreamWork) : StreamWork :=
  StreamWork.moveTo { w with
    frames := blankCells w.frames w.slot.entry w.slot.position (Config.frameBytes - w.slot.position) }
    Config.frameBytes

/-- R32: a pattern is written `n` times, clamped at the end of the page. -/
def StreamWork.repeatCell (w : StreamWork) (pattern : Byte) : Nat → StreamWork
  | 0 => w
  | n + 1 => if w.slot.complete then w else StreamWork.repeatCell (w.putCell pattern) pattern n

/-- R33: the write position advances by `n` cells, stopping at the end of the page. -/
def StreamWork.skip (w : StreamWork) : Nat → StreamWork
  | 0 => w
  | n + 1 => if w.slot.complete then w else StreamWork.skip w.advance n

/-- The cell of the write position (R22). -/
def LoadSlot.cell (r : LoadSlot) : Nat := r.position % Config.cellsPerLine
/-- The line of the write position (R22); 32 past the end of the page (R184). -/
def LoadSlot.line (r : LoadSlot) : Nat := r.position / Config.cellsPerLine

/-- R35: MARK_CLOSE. -/
def StreamWork.markClose (w : StreamWork) : StreamWork := w.closeMark w.slot.cell

/-- R35: MARK_OPEN of a class: an open mark is closed first. -/
def StreamWork.markOpen (w : StreamWork) (c : MarkClass) : StreamWork :=
  let w1 := w.markClose
  { w1 with slot := { w1.slot with openMark := some ⟨c, w1.slot.line, w1.slot.cell⟩ } }

/-- The stream with another state between bytes. -/
def StreamWork.setText (w : StreamWork) (t : TextState) : StreamWork := { w with slot := { w.slot with text := t } }

/-- R30: the consulted entries of the control-code table: up to and including the first with the end flag. -/
def consulted : List ControlEntry → List ControlEntry
  | [] => []
  | e :: rest => if e.last then [e] else e :: consulted rest

/-- R29, R30: the action of a code, among the consulted entries. -/
def actionOf (codes : List ControlEntry) (b : Byte) : Option ControlAction :=
  ((consulted codes).find? fun e => e.code == some b).bind ControlEntry.action

/-- R29, R31, R34, R35: an action begins: one without operands completes at once. -/
def StreamWork.begin (w : StreamWork) : ControlAction → StreamWork
  | .lineEnd => (w.setText .plain).lineEnd
  | .pageEnd => (w.setText .plain).pageEnd
  | .repeatCell => w.setText .repeatCount
  | .skip => w.setText .skipCount
  | .markOpen => w.setText .markClass
  | .markClose => (w.setText .plain).markClose

/-- R28, R29, R34: one byte of a TEXT stream, counted in the stream offset by the caller. -/
def StreamWork.textByte (escape : Byte) (codes : List ControlEntry) (w : StreamWork) (b : Byte) :
    Except StreamError StreamWork :=
  match w.slot.text with
  | .plain => if b = escape then .ok (w.setText .escape) else .ok (w.putCell b)
  | .escape =>
    if b = escape then .ok ((w.setText .plain).putCell b)
    else match actionOf codes b with
      | some a => .ok (w.begin a)
      | none => .error .badEscape
  | .repeatCount => .ok (w.setText (.repeatPattern b))
  | .repeatPattern n => .ok ((w.setText .plain).repeatCell b n.toNat)
  | .skipCount => .ok ((w.setText .plain).skip b.toNat)
  | .markClass =>
    match readClass b with
    | some c => .ok ((w.setText .plain).markOpen c)
    | none => .error .badOperand

/-- R38: one byte of a RAW stream. -/
def StreamWork.rawByte (w : StreamWork) (b : Byte) : StreamWork :=
  let next := w.slot.position + 1
  { w with
    frames := writeFrame w.frames w.slot.entry w.slot.position b
    slot := { w.slot with position := next, complete := decide (Config.frameBytes ≤ next) } }

/-- One byte of a stream of either kind, with the stream offset counted (R27). -/
def StreamWork.byte (escape : Byte) (codes : List ControlEntry) (w : StreamWork) (b : Byte) :
    Except StreamError StreamWork :=
  let counted := { w with slot := { w.slot with offset := w.slot.offset + 1 } }
  match w.slot.kind with
  | .text => counted.textByte escape codes b
  | .raw => .ok (counted.rawByte b)

/-- How the decoding of a DATA ends (R27): the stream goes on or is complete, with the numbers of bytes consumed and
discarded, or a fatal error at a stream offset. The work is as far as the decoding came. -/
inductive DataEnd where
  | done (work : StreamWork) (consumed discarded : Nat)
  | fatal (work : StreamWork) (error : StreamError) (offset : Nat)
  deriving DecidableEq, Repr

/-- R27, R37, R39: the bytes of a DATA are consumed in order; once the page has ended the rest is discarded. -/
def decodeBytes (escape : Byte) (codes : List ControlEntry) (w : StreamWork) (consumed : Nat) :
    List Byte → DataEnd
  | [] => .done w consumed 0
  | b :: rest =>
    if w.slot.complete then .done w consumed (rest.length + 1)
    else
      match w.byte escape codes b with
      | .ok w' => decodeBytes escape codes w' (consumed + 1) rest
      | .error e => .fatal w e w.slot.offset

/-- The state with a stream's work put back into slot `i` and its entry. -/
def State.storeWork (s : State) (i : Fin 2) (w : StreamWork) : State :=
  (s.setLoad (s.load.setSlot i (some w.slot))).setDir
    { s.dir.setEntry w.slot.entry { s.dir.entries[w.slot.entry] with marks := w.marks } with frames := w.frames }

/-- A slot's stream, to be worked on. -/
def State.streamWork (s : State) (r : LoadSlot) : StreamWork :=
  ⟨r, s.dir.entries[r.entry].marks, s.dir.frames⟩

/-- R39, R46: a load ends without a commit: the slot is IDLE and its LOADING entry is FREE. -/
def State.dropLoad (s : State) (i : Fin 2) (r : LoadSlot) : State :=
  (s.setLoad (s.load.setSlot i none)).setDir (s.dir.freeEntry r.entry)

/-- R39: a fatal stream error on slot `i`. -/
def State.fatalStream (s : State) (i : Fin 2) (r : LoadSlot) (e : StreamError) (offset : Nat) : State :=
  ((s.dropLoad i r).post (.streamFault i e offset)).loadEnded r.key

/-- R42: the implicit end of a load that is still OPEN at its COMMIT, and whether an incomplete element was
discarded. -/
def StreamWork.implicitEnd (w : StreamWork) : StreamWork × Bool :=
  if w.slot.complete || w.slot.kind == .raw then (w, false)
  else ((w.setText .plain).markClose, w.slot.text != .plain)

/-- R44, step 1: the patron marks of a replaced entry that the new list has room for, and how many are left
over. -/
def carriedMarks (new old : List Mark) : List Mark × Nat :=
  let patron := old.filter fun m => m.owner == .patron
  let room := Config.maxMarks - new.length
  (patron.take room, patron.length - (patron.take room).length)

/-- R43: the directory when a page is placed as a new key: READY with revision 1, at the tail of the reclaim queue
if unpinned. -/
def Directory.placeNew (d : Directory) (i : Fin 48) (marks : List Mark) : Directory :=
  (d.setEntry i { d.entries[i] with state := .ready, revision := 1, slot := none, marks := marks }).joinQueue i

/-- R44: the directory when a page replaces the visible entry `v`. -/
def Directory.replaceEntry (d : Directory) (i v : Fin 48) (marks : List Mark) : Directory :=
  let old := d.entries[v]
  let state := if old.state = .shown then EntryState.shown else .ready
  let d1 := d.setEntry i { d.entries[i] with
    state := state, revision := old.revision + 1, slot := none, marks := marks }
  (d1.joinQueue i).freeEntry v

end Sys2Proof.Machine
end

