-- ==== Sys2Proof/Machine/LoadCommands.lean ====
section
/-! DEFINITION. Loading pages (02): OPEN LOAD, DATA, COMMIT, CANCEL LOAD, SET CONTROL CODES, and the expiry of a
slot's idle timer. -/

namespace Sys2Proof.Machine

/-- What an OPEN LOAD carries (R24). -/
structure OpenArgs where
  key : Key
  kind : Kind
  group : BitVec 4
  pinned : Bool
  condition : CommitCondition
  deriving DecidableEq, Repr

/-- R24, step 1: the arguments of OPEN LOAD, none when one is out of range. -/
def readOpenArgs : List Byte → Option OpenArgs
  | [d, p0, p1, kind, group, pinned, c, r0, r1] => do
    let k ← readKey d p0 p1
    let kd ← readKind kind
    let g ← readNibble group
    let pin ← readBool pinned
    let cond ← readCommitCondition c r0 r1
    some ⟨k, kd, g, pin, cond⟩
  | _ => none

/-- The lowest-numbered IDLE slot (R25). -/
def Decoder.lowestIdle (d : Decoder) : Option (Fin 2) :=
  (List.finRange 2).find? fun i => d.slots[i] == none

/-- R22, R25: the record of a slot that becomes OPEN. -/
def openRecord (a : OpenArgs) (entry : Fin 48) : LoadSlot where
  complete := false
  entry := entry
  key := a.key
  kind := a.kind
  condition := a.condition
  offset := 0
  position := 0
  text := .plain
  openMark := none
  dropped := 0

/-- R1, R25: the entry that an OPEN LOAD makes LOADING. -/
def loadingEntryOf (a : OpenArgs) (slot : Fin 2) : Entry where
  state := .loading
  key := some a.key
  kind := a.kind
  revision := 0
  pinned := a.pinned
  group := a.group
  held := false
  marks := []
  slot := some slot

/-- R12, R25: the entry `i`, FREE or reclaimed, becomes LOADING for `slot`, its frame cleared. -/
def Directory.openEntry (d : Directory) (i : Fin 48) (slot : Fin 2) (a : OpenArgs) : Directory :=
  { (d.freeEntry i).setEntry i (loadingEntryOf a slot) with frames := clearFrame d.frames i }

/-- R24, R25: the rule of OPEN LOAD. A KEY_BUSY response carries no payload, by which it names nothing beyond the key of
the command it answers: the manual leaves open whether the key stands in it (log entry 25). -/
def openLoadRule (payload : List Byte) (s : State) : State × Reply :=
  match readOpenArgs payload with
  | none => (s, .bare .badArgument)
  | some a =>
    if (s.load.slotOfKey a.key).isSome then (s, .bare .keyBusy)
    else match s.load.lowestIdle with
      | none => (s, .bare .noSlot)
      | some slot =>
        match s.dir.chooseEntry with
        | none => (s, .bare .storeFull)
        | some (i, reclaimed) =>
          let oldKey := if reclaimed then s.dir.entries[i].key else none
          ((s.setDir (s.dir.openEntry i slot a)).setLoad (s.load.setSlot slot (some (openRecord a i))),
            ⟨.ok, [put8 slot.val, put8 i.val] ++ putKeyOr s.link.served placeReclaimedKey oldKey⟩)

/-- OPEN_LOAD. -/
def execOpenLoad (b : CommandBody) (s : State) : Host.Outcome State Fault Refusal :=
  s.take 0x10 b openLoadRule

/-- R27, R184: the write position of a DATA response: line and cell, or the fill count. -/
def putPosition (r : LoadSlot) : List Byte :=
  match r.kind with
  | .text => [put8 r.line, put8 r.cell]
  | .raw => putNat16 r.position

/-- R27: the answer to a DATA that did not end in a fatal error. -/
def dataReply (w : StreamWork) (consumed discarded : Nat) : Reply :=
  ⟨.ok, putNat16 consumed ++ putNat16 discarded ++ [slotStateCode (some w.slot)] ++ putPosition w.slot ++
    [put8 w.marks.length, put8 w.slot.dropped]⟩

/-- R27, R39: the rule of DATA. -/
def dataRule (payload : List Byte) (s : State) : State × Reply :=
  match payload with
  | [] => (s, .bare .badLength)
  | sl :: bytes =>
    match readBelow 2 sl with
    | none => (s, .bare .badArgument)
    | some i =>
      if bytes.length = 0 ∨ 256 < bytes.length then (s, .bare .badLength)
      else match s.load.slots[i] with
        | none => (s, .bare .slotState)
        | some r =>
          if r.complete then (s, .bare .slotState)
          else match decodeBytes s.load.escape s.load.codes.toList (s.streamWork r) 0 bytes with
            | .done w consumed discarded => (s.storeWork i w, dataReply w consumed discarded)
            | .fatal w e offset =>
              ((s.storeWork i w).fatalStream i w.slot e offset,
                ⟨.streamFault, e.code :: putNat32 offset⟩)

/-- DATA. -/
def execData (b : CommandBody) (s : State) : Host.Outcome State Fault Refusal :=
  s.take 0x11 b dataRule

/-- The slot and the commit condition, if one is given, that a COMMIT carries (R41). -/
def readCommitArgs : List Byte → Option (Fin 2 × Option CommitCondition)
  | [sl] => (readBelow 2 sl).map fun i => (i, none)
  | [sl, c, r0, r1] => do
    let i ← readBelow 2 sl
    let cond ← readCommitCondition c r0 r1
    some (i, some cond)
  | _ => none

/-- R41, steps 1 to 4: the refusal of a commit under a condition, `v` being the visible entry of the key. -/
def commitRefusal (cond : CommitCondition) (v : Option Entry) : Option Reply :=
  match v, cond with
  | some e, .newOnly => some (.withRevision .exists_ e.revision)
  | none, .ifRevision _ => some (.bare .notFound)
  | none, _ => none
  | some e, .any => if e.held then some (.withRevision .held e.revision) else none
  | some e, .ifRevision r =>
    if e.held then some (.withRevision .held e.revision)
    else if e.revision = r then none else some (.withRevision .stale e.revision)

/-- R45: the answer to a COMMIT that is taken. -/
def commitReply (entry : Fin 48) (revision : BitVec 16) (replaced : Option (Fin 48)) (carried dropped : Nat)
    (truncated : Bool) : Reply :=
  ⟨.ok, put8 entry.val :: put16 revision ++
    [putBool replaced.isSome, putIndexOr (replaced.map Fin.val), put8 carried, put8 (min 255 dropped),
      putBool truncated]⟩

/-- R42 to R45: a COMMIT is taken on slot `i`. -/
def State.takeCommit (s : State) (i : Fin 2) (r : LoadSlot) : State × Reply :=
  let ended := (s.streamWork r).implicitEnd
  let marks := ended.1.marks
  let dropped := ended.1.slot.dropped
  let idle := s.load.setSlot i none
  match s.dir.visibleEntry r.key with
  | none =>
    (((s.setLoad idle).setDir (s.dir.placeNew r.entry marks)).keyCommitted r.key,
      commitReply r.entry 1 none 0 dropped ended.2)
  | some v =>
    let old := s.dir.entries[v]
    let carried := carriedMarks marks old.marks
    let t := (s.setLoad idle).setDir (s.dir.replaceEntry r.entry v (marks ++ carried.1))
    let u := if old.state = .shown then t.recompose allLines else t
    (u.keyCommitted r.key,
      commitReply r.entry (old.revision + 1) (some v) carried.1.length (dropped + carried.2) ended.2)

/-- R41: the rule of COMMIT. A condition that is given replaces the slot's, whether or not the commit is taken. -/
def commitRule (payload : List Byte) (s : State) : State × Reply :=
  match readCommitArgs payload with
  | none => (s, .bare .badArgument)
  | some (i, cond) =>
    match s.load.slots[i] with
    | none => (s, .bare .slotState)
    | some r0 =>
      let r := { r0 with condition := cond.getD r0.condition }
      let s1 := s.setLoad (s.load.setSlot i (some r))
      match commitRefusal r.condition ((s.dir.visibleEntry r.key).map fun v => s.dir.entries[v]) with
      | some refusal => (s1, refusal)
      | none => s1.takeCommit i r

/-- COMMIT. -/
def execCommit (b : CommandBody) (s : State) : Host.Outcome State Fault Refusal :=
  s.take 0x12 b commitRule

/-- R46: the rule of CANCEL LOAD. -/
def cancelLoadRule (payload : List Byte) (s : State) : State × Reply :=
  match payload with
  | [sl] =>
    match readBelow 2 sl with
    | none => (s, .bare .badArgument)
    | some i =>
      match s.load.slots[i] with
      | none => (s, .bare .slotState)
      | some r => ((s.dropLoad i r).loadEnded r.key, ⟨.ok, put8 r.entry.val :: putNat32 r.offset⟩)
  | _ => (s, .bare .badLength)

/-- CANCEL_LOAD. -/
def execCancelLoad (b : CommandBody) (s : State) : Host.Outcome State Fault Refusal :=
  s.take 0x13 b cancelLoadRule

/-- R184: a control-code entry: code byte, flags, action. An action number that names none is read as none. -/
def readControlEntry (code flags action : Byte) : ControlEntry :=
  ⟨if flags.getLsbD 0 then some code else none, readAction action, flags.getLsbD 1⟩

/-- The control-code entries of a SET CONTROL CODES. -/
def readControlEntries : List Byte → List ControlEntry
  | c :: f :: a :: rest => readControlEntry c f a :: readControlEntries rest
  | _ => []

/-- R47: whether a control-code table is accepted: the consulted entries name actions, none of their codes is the
escape value, and no two hold the same code. -/
def codesGood (escape : Byte) (codes : List ControlEntry) : Bool :=
  let used := consulted codes
  used.all (fun e => e.action.isSome) && used.all (fun e => e.code != some escape) &&
    decide (used.filterMap ControlEntry.code).Nodup

/-- R47: the rule of SET CONTROL CODES. An argument that will not do is found first (R182; log entry 23). -/
def setControlCodesRule (payload : List Byte) (s : State) : State × Reply :=
  match payload with
  | [] => (s, .bare .badLength)
  | escape :: rest =>
    let codes := readControlEntries rest
    if !codesGood escape codes then (s, .bare .badArgument)
    else if s.load.slots[0] ≠ none ∨ s.load.slots[1] ≠ none then (s, .bare .slotState)
    else
      (s.setLoad { s.load with
        escape := escape
        codes := Vector.ofFn fun i => codes.getD i.val ⟨none, some .lineEnd, false⟩ }, ⟨.ok, []⟩)

/-- SET_CONTROL_CODES. -/
def execSetControlCodes (b : CommandBody) (s : State) : Host.Outcome State Fault Refusal :=
  s.take 0x14 b setControlCodesRule

/-- TIMEOUT: R39, R40. On an IDLE slot no timer runs, and nothing happens. -/
def execTimeout (slot : Fin 2) (s : State) : Host.Outcome State Fault Refusal :=
  if s.resetPin then .next s
  else match s.load.slots[slot] with
    | none => .next s
    | some r => .next (s.fatalStream slot r .timeout r.offset)

end Sys2Proof.Machine
end

