-- ==== Sys2Proof/Machine/NavCommands.lean ====
section
/-! DEFINITION. Navigation (04): SHOW, DECLINE MISS, SET NAVIGATION and the samples of the patron keys. -/

namespace Sys2Proof.Machine

/-- R72: the rule of SHOW. -/
def showRule (payload : List Byte) (s : State) : State × Reply :=
  match payload with
  | [d, p0, p1] =>
    match readKey d p0 p1 with
    | none => (s, .bare .badArgument)
    | some k =>
      if s.dir.lookup k = .absent then (s, .bare .notFound)
      else
        let t := (s.setNav { s.nav with document := k.doc }).wantPage k.page .command
        (t, ⟨.ok, t.nav.cond.code :: putKeyOr t.link.served placeShownKey t.nav.shownKey⟩)
  | _ => (s, .bare .badLength)

/-- SHOW. -/
def execShow (b : CommandBody) (s : State) : Host.Outcome State Fault Refusal :=
  s.take 0x38 b showRule

/-- R73, step 2: the wanted key is reset to the shown key, SETTLED. -/
def Navigation.returnToShown (n : Navigation) : Navigation :=
  { n with
    document := (n.shownKey.map Key.doc).getD n.document
    wanted := n.shownKey.map Key.page
    cond := .settled }

/-- R73: the miss record is unlocked, and a waiting navigation returns to the shown key. -/
def State.declineMiss (s : State) : State :=
  if s.nav.missLocked then
    let t := s.setNav { s.nav with missLocked := false }
    if s.nav.waiting then (t.setNav t.nav.returnToShown).tellCondition s.nav.cond else t
  else s

/-- R73: the rule of DECLINE MISS. -/
def declineMissRule (_payload : List Byte) (s : State) : State × Reply :=
  let t := s.declineMiss
  (t, ⟨.ok, putNavigation t⟩)

/-- DECLINE_MISS. -/
def execDeclineMiss (b : CommandBody) (s : State) : Host.Outcome State Fault Refusal :=
  s.take 0x39 b declineMissRule

/-- R71: the rule of SET NAVIGATION. -/
def setNavigationRule (payload : List Byte) (s : State) : State × Reply :=
  match payload with
  | [v] =>
    match readBool v with
    | none => (s, .bare .badArgument)
    | some lock =>
      let t := s.setNav { s.nav with lock := lock }
      (t, ⟨.ok, putNavigation t⟩)
  | _ => (s, .bare .badLength)

/-- SET_NAVIGATION. -/
def execSetNavigation (b : CommandBody) (s : State) : Host.Outcome State Fault Refusal :=
  s.take 0x3A b setNavigationRule

/-- R64: the presses of one sample, acted on one after another. -/
def State.pressKeys (s : State) : List PatronKey → State
  | [] => s
  | k :: rest => (s.pressKey k).pressKeys rest

/-- The patron keys in the order of R64. -/
def patronKeys : List PatronKey := [.prev, .next, .mark, .seek, .call]

/-- R63: the debouncers after a sample. -/
def sampleKeys (keys : Vector Debouncer 5) (down : Vector Bool 5) : Vector Debouncer 5 :=
  Vector.ofFn fun i => keys[i].sample down[i]

/-- R63: the keys whose press a sample registers, in the order of R64. -/
def registeredPresses (keys : Vector Debouncer 5) (down : Vector Bool 5) : List PatronKey :=
  ((List.finRange 5).filter fun i => keys[i].presses down[i]).filterMap fun i => patronKeys[i.val]?

/-- R63, R64: a sample of the five keys. -/
def State.sample (s : State) (down : Vector Bool 5) : State :=
  (s.setNav { s.nav with keys := sampleKeys s.nav.keys down }).pressKeys (registeredPresses s.nav.keys down)

/-- KEY_SAMPLE. -/
def execKeySample (prev next mark seek call : Bool) (s : State) : Host.Outcome State Fault Refusal :=
  if s.resetPin then .next s else .next (s.sample #v[prev, next, mark, seek, call])

end Sys2Proof.Machine
end

