-- ==== Sys2Proof/Machine/PinCommands.lean ====
section
/-! DEFINITION. The Pin Field (07): READ FAULTS, READ ROW, CLEAR FAULTS and the completion of a stroke. -/

namespace Sys2Proof.Machine

/-- R127: the rule of READ FAULTS. -/
def readFaultsRule (_payload : List Byte) (s : State) : State × Reply :=
  (s, ⟨.ok, put8 s.pins.faults.length :: s.pins.faults.flatMap putFault⟩)

/-- READ_FAULTS. -/
def execReadFaults (b : CommandBody) (s : State) : Host.Outcome State Fault Refusal :=
  s.take 0x58 b readFaultsRule

/-- R128: the rule of READ ROW. -/
def readRowRule (payload : List Byte) (s : State) : State × Reply :=
  match payload with
  | [r] =>
    match readBelow 128 r with
    | none => (s, .bare .badArgument)
    | some row =>
      (s, ⟨.ok, putBool s.pins.known[row] :: putRow s.pins.confirmed[row] ++ putRow s.comp.target[row] ++
        putRow (s.deferred row) ++ putRow (s.pins.stuckColumns row)⟩)
  | _ => (s, .bare .badLength)

/-- READ_ROW. -/
def execReadRow (b : CommandBody) (s : State) : Host.Outcome State Fault Refusal :=
  s.take 0x5A b readRowRule

/-- What a CLEAR FAULTS selects (R129). -/
inductive FaultSelector where
  | all
  | pin (row : Fin 128) (col : Fin 80)
  deriving DecidableEq, Repr

/-- R129: reads a selector; the row and column are ignored for ALL (R185). -/
def readSelector (sel row col : Byte) : Option FaultSelector :=
  if sel = 1 then some .all
  else if sel = 0 then
    match readBelow 128 row, readBelow 80 col with
    | some r, some c => some (.pin r c)
    | _, _ => none
  else none

/-- Whether a selector selects a record. -/
def FaultSelector.selects (sel : FaultSelector) (f : FaultRecord) : Bool :=
  match sel with
  | .all => true
  | .pin r c => f.row == r && f.col == c

/-- R130: the Pin Field after the selected records are removed, the counts of their pins becoming 0. -/
def PinField.clear (p : PinField) (sel : FaultSelector) : PinField :=
  let removed := p.faults.filter sel.selects
  { p with
    faults := p.faults.filter fun f => !sel.selects f
    attempts := storeDrop (fun a => removed.any fun f => pinIndex f.row f.col == a) p.attempts }

/-- R124, R130: CLEAR FAULTS is taken: the Stroke Planner is told the rows that lost a record and the Row Calendar
is woken, if a record was removed. -/
def State.clearFaults (s : State) (sel : FaultSelector) : State :=
  let removed := s.pins.faults.filter sel.selects
  if removed = [] then s
  else ((s.setPins (s.pins.clear sel)).reform fun r => removed.any fun f => f.row == r).wake

/-- R129, R130: the rule of CLEAR FAULTS. -/
def clearFaultsRule (payload : List Byte) (s : State) : State × Reply :=
  match payload with
  | [b, r, c] =>
    match readSelector b r c with
    | none => (s, .bare .badArgument)
    | some sel =>
      (s.clearFaults sel, ⟨.ok, [put8 (s.pins.faults.filter sel.selects).length,
        put8 (s.pins.faults.filter fun f => !sel.selects f).length]⟩)
  | _ => (s, .bare .badLength)

/-- CLEAR_FAULTS. -/
def execClearFaults (b : CommandBody) (s : State) : Host.Outcome State Fault Refusal :=
  s.take 0x59 b clearFaultsRule

/-- What the Pin Field has found while it takes a drive result: the field, the number of pins found stuck, and
whether one was not recorded because the table was full (R126). -/
structure ResultTally where
  pins : PinField
  newStuck : Nat
  tableFull : Bool
  deriving DecidableEq, Repr

/-- The Pin Field with a pin's attempt count set (R117). -/
def PinField.setAttempt (p : PinField) (r : Fin 128) (c : Fin 80) (n : Nat) : PinField :=
  { p with attempts := storeWrite 0 p.attempts (pinIndex r c) n }

/-- R120, R125: a pin is found stuck, read at position `up`. -/
def ResultTally.stuck (t : ResultTally) (r : Fin 128) (c : Fin 80) (up : Bool) : ResultTally :=
  let p := t.pins.setAttempt r c 0
  if p.faults.length < Config.maxFaults then
    ⟨{ p with faults := p.faults ++ [⟨r, c, up⟩] }, t.newStuck + 1, t.tableFull⟩
  else ⟨p, t.newStuck + 1, true⟩

/-- R119, R120: one moved pin of a drive stroke. -/
def ResultTally.move (r : Fin 128) (sensed : PinRow) (t : ResultTally) (m : Move) : ResultTally :=
  let read := sensed.getLsbD m.col.val
  if read = m.up then { t with pins := t.pins.setAttempt r m.col 0 }
  else if m.pulse = .soft then t
  else
    let n := t.pins.attempt r m.col
    if n < 2 then { t with pins := t.pins.setAttempt r m.col (n + 1) } else t.stuck r m.col read

/-- R118, R119: the row's confirmed positions are those sensed, and the row is known. -/
def PinField.confirm (p : PinField) (r : Fin 128) (sensed : PinRow) : PinField :=
  { p with confirmed := p.confirmed.set r sensed, known := p.known.set r true }

/-- R118 to R121, R126: the Pin Field takes a stroke result. The moves of a plan stand in ascending column order
(R138), in which pins found stuck are recorded. -/
def State.takeResult (s : State) (p : Plan) (sensed : PinRow) : State :=
  match p.kind with
  | .survey => s.setPins (s.pins.confirm p.row sensed)
  | .drive =>
    let t := p.moves.foldl (ResultTally.move p.row sensed) ⟨s.pins, 0, false⟩
    let u := s.setPins (t.pins.confirm p.row sensed)
    if t.newStuck = 0 then u else u.post (.pinFault t.newStuck t.tableFull)

/-- STROKE_COMPLETION: R145. With no stroke in flight no completion comes. -/
def execStrokeCompletion (sensed : PinRow) (s : State) : Host.Outcome State Fault Refusal :=
  if s.resetPin then .next s
  else match s.drive.cond with
    | .inFlight p =>
      let t := s.takeResult p sensed
      .next (t.setDrive { t.drive with cond := .noPlan }).strokeDone
    | _ => .next s

end Sys2Proof.Machine
end

