-- ==== Sys2Proof/Machine/Resets.lean ====
section
/-! DEFINITION. The resets (R189, R190) and the RESET pin. -/

namespace Sys2Proof.Machine

/-- The fault table after a reset (R132): emptied by a power-on reset, kept by the others. -/
def faultsAfter (kind : ResetKind) (faults : List FaultRecord) : List FaultRecord :=
  match kind with
  | .powerOn => []
  | .pin | .command => faults

/-- R189: every block takes its reset values. The supply monitor is what the comparator reads in this event. The
queue of rows and the levels of the input pins are not state of a block. -/
def State.resetBlocks (s : State) (kind : ResetKind) : State :=
  { s with
    link := Link.afterReset kind s.link.shiftedOut s.link.served
    dir := Directory.afterReset
    load := Decoder.afterReset
    sweep := none
    nav := Navigation.afterReset
    comp := Compositor.afterReset
    pins := PinField.afterReset (faultsAfter kind s.pins.faults)
    drive := Drive.afterReset s.supplyPin
    cal := Calendar.afterReset s.supplyPin
    touch := Touch.afterReset }

/-- POWER_ON_RESET: power comes up. The level of the RESET pin is the outside's (log entry 4). -/
def execPowerOnReset (s : State) : Host.Outcome State Fault Refusal :=
  .next (s.resetBlocks .powerOn)

/-- PIN_RESET: the RESET pin is released. -/
def execPinReset (s : State) : Host.Outcome State Fault Refusal :=
  .next ({ s with resetPin := false }.resetBlocks .pin)

/-- RESET_PIN_ASSERTED: from now until the release the part takes no event. -/
def execResetPinAsserted (s : State) : Host.Outcome State Fault Refusal :=
  .next { s with resetPin := true }

/-- R190: the rule of RESET: the command reset falls first, and the response is formed after it. -/
def resetRule (_payload : List Byte) (s : State) : State × Reply := taken (s.resetBlocks .command)

/-- RESET. -/
def execResetCommand (b : CommandBody) (s : State) : Host.Outcome State Fault Refusal :=
  s.take 0x7F b resetRule

end Sys2Proof.Machine
end

