-- ==== Sys2Proof/Machine/SweepCommands.lean ====
section
/-! DEFINITION. Sweeps (05): SWEEP, ABORT SWEEP and the visits of the pass. -/

namespace Sys2Proof.Machine

/-- R83: whether an entry matches a sweep's criteria. -/
def SweepDescriptor.covers (d : SweepDescriptor) (e : Entry) : Bool :=
  match e.key with
  | none => false
  | some k =>
    e.visible && (d.document.all fun doc => k.doc == doc) &&
      decide (d.first.toNat ≤ k.page.toNat) && decide (k.page.toNat ≤ d.last.toNat) &&
      ((e.group &&& d.mask) == d.v0 || (e.group &&& d.mask) == d.v1)

/-- R86: the directory after the HELD flag of every matching entry is set. -/
def Directory.holdMatching (d : Directory) (desc : SweepDescriptor) : Directory :=
  { d with entries := Vector.ofFn fun i =>
      if desc.covers d.entries[i] then { d.entries[i] with held := true } else d.entries[i] }

/-- The number of entries that match (R82). -/
def Directory.matching (d : Directory) (desc : SweepDescriptor) : Nat :=
  ((List.finRange 48).filter fun i => desc.covers d.entries[i]).length

/-- R85, R86: the rule of SWEEP. -/
def sweepRule (payload : List Byte) (s : State) : State × Reply :=
  match readDescriptor payload with
  | none => (s, .bare .badArgument)
  | some desc =>
    match s.sweep with
    | some _ => (s, .bare .sweepBusy)
    | none =>
      let n := s.dir.matching desc
      ((s.setDir (s.dir.holdMatching desc)).setSweep (some ⟨desc, 0, n, 0, 0, 0⟩), ⟨.accepted, [put8 n]⟩)

/-- SWEEP. -/
def execSweep (b : CommandBody) (s : State) : Host.Outcome State Fault Refusal :=
  s.take 0x30 b sweepRule

/-- R93, R94: the SWEEP_DONE notice of a sweep. -/
def SweepRun.notice (r : SweepRun) (aborted : Bool) : Notice :=
  .sweepDone r.matched r.changed r.skippedShown r.collisions aborted

/-- The HELD entries, in ascending index order. -/
def Directory.heldEntries (d : Directory) : List (Fin 48) :=
  (List.finRange 48).filter fun i => d.entries[i].held

/-- R94, step 1: the directory with every HELD flag cleared. -/
def Directory.releaseAll (d : Directory) : Directory :=
  { d with entries := Vector.ofFn fun i => { d.entries[i] with held := false } }

/-- R94, step 2: navigation is told of each released key in turn. -/
def State.tellReleased (s : State) : List Key → State
  | [] => s
  | k :: rest => (s.keyReleased k).tellReleased rest

/-- R94: the rule of ABORT SWEEP. On an IDLE engine it answers OK with 0 entries released (log entry 17). -/
def abortSweepRule (_payload : List Byte) (s : State) : State × Reply :=
  match s.sweep with
  | none => (s, ⟨.ok, [put8 0]⟩)
  | some r =>
    let held := s.dir.heldEntries
    let keys := held.filterMap fun i => s.dir.entries[i].key
    let t := (s.setDir s.dir.releaseAll).tellReleased keys
    ((t.post (r.notice true)).setSweep none, ⟨.ok, [put8 held.length]⟩)

/-- ABORT_SWEEP. -/
def execAbortSweep (b : CommandBody) (s : State) : Host.Outcome State Fault Refusal :=
  s.take 0x31 b abortSweepRule

/-- R90: the key that a MOVE_DOC gives an entry; the key itself without one. -/
def SweepDescriptor.keyAfter (d : SweepDescriptor) (k : Key) : Key :=
  match d.moveDoc with
  | some doc => { k with doc := doc }
  | none => k

/-- R90: whether a key is taken: a visible entry or a load slot holds it. -/
def State.keyTaken (s : State) (k : Key) : Bool :=
  (s.dir.visibleEntry k).isSome || (s.load.slotOfKey k).isSome

/-- R89: the marks that a visit removes. -/
def SweepDescriptor.removes (d : SweepDescriptor) (m : Mark) : Bool :=
  match d.clearMarks with
  | some (classes, owners) => m.inSets classes owners
  | none => false

/-- R89: the entry after a visit's actions but SET_PIN, released. -/
def SweepDescriptor.applyTo (d : SweepDescriptor) (e : Entry) (k : Key) : Entry :=
  { e with
    held := false
    group := d.setGroup.getD e.group
    marks := e.marks.filter fun m => !d.removes m
    key := some (d.keyAfter k)
    revision := if e.marks.any d.removes || d.keyAfter k != k then e.revision + 1 else e.revision }

/-- R89: the directory after a visit's actions on entry `i`. -/
def Directory.visitApply (dir : Directory) (i : Fin 48) (d : SweepDescriptor) (k : Key) : Directory :=
  let dir1 := dir.setEntry i (d.applyTo dir.entries[i] k)
  match d.setPin with
  | some p => dir1.setPinned i p
  | none => dir1

/-- R93: whether a visit's actions change an entry. -/
def SweepDescriptor.changes (d : SweepDescriptor) (e : Entry) (k : Key) : Bool :=
  (d.setPin.getD e.pinned) != e.pinned || (d.setGroup.getD e.group) != e.group || e.marks.any d.removes ||
    d.keyAfter k != k

/-- The directory with entry `i`'s HELD flag cleared. -/
def Directory.release (d : Directory) (i : Fin 48) : Directory :=
  d.setEntry i { d.entries[i] with held := false }

/-- R88 to R90: the visit to a HELD entry `i` that holds key `k`: its outcome is decided and applied, the flag is
cleared, the Compositor is told of lost marks, and then navigation of the release. -/
def State.visitHeld (s : State) (r : SweepRun) (i : Fin 48) (k : Key) : State × SweepRun :=
  let d := r.descriptor
  let e := s.dir.entries[i]
  if d.retire then
    if e.state = .shown then
      ((s.setDir (s.dir.release i)).keyReleased k, { r with skippedShown := r.skippedShown + 1 })
    else ((s.setDir (s.dir.freeEntry i)).keyReleased k, { r with changed := r.changed + 1 })
  else if d.keyAfter k ≠ k ∧ s.keyTaken (d.keyAfter k) = true then
    ((s.setDir (s.dir.release i)).keyReleased k, { r with collisions := r.collisions + 1 })
  else
    let t := s.setDir (s.dir.visitApply i d k)
    let lost := (e.marks.filter d.removes).map Mark.line
    let u := if lost = [] then t else t.tellLines i lost
    let v := if d.keyAfter k = k then u.keyReleased k
      else u.keyMoved k (d.keyAfter k) (e.state == .shown)
    (v, if d.changes e k then { r with changed := r.changed + 1 } else r)

/-- R87: the visit to entry `i`; an entry that is not HELD is passed over. -/
def State.visitEntry (s : State) (r : SweepRun) (i : Fin 48) : State × SweepRun :=
  if s.dir.entries[i].held then
    match s.dir.entries[i].key with
    | some k => s.visitHeld r i k
    | none => (s.setDir (s.dir.release i), r)
  else (s, r)

/-- R87, R93: after the visit's own work the progress becomes the next index, or the pass ends. -/
def State.sweepAdvance (s : State) (r : SweepRun) : State :=
  if h : r.progress.val + 1 < 48 then s.setSweep (some { r with progress := ⟨r.progress.val + 1, h⟩ })
  else (s.post (r.notice false)).setSweep none

/-- SWEEP_VISIT: R87, R88. With the engine IDLE no visit comes. -/
def execSweepVisit (s : State) : Host.Outcome State Fault Refusal :=
  if s.resetPin then .next s
  else match s.sweep with
    | none => .next s
    | some r =>
      let v := s.visitEntry r r.progress
      .next (v.1.sweepAdvance v.2)

end Sys2Proof.Machine
end

