-- ==== Sys2Proof/Machine/TouchCommands.lean ====
section
/-! DEFINITION. The Touch Unit (10): SET TOUCH, the readings of the electrodes and the expiry of a hold timer. -/

namespace Sys2Proof.Machine

/-- R177: the ranges of the three settings, the hold limit in steps of 0.5 s. -/
def touchSettingsGood (tOn tOff limit : Nat) : Bool :=
  decide (16 ≤ tOn) && decide (tOn ≤ 1000) && decide (1 ≤ tOff) && decide (tOff ≤ 999) && decide (tOff < tOn) &&
    decide (1 ≤ limit) && decide (limit ≤ 16)

/-- R177: the Touch Unit after a SET TOUCH that is taken. -/
def Touch.configure (t : Touch) (tOn tOff limit : Nat) : Touch :=
  { t with
    zones := Vector.ofFn fun z => { t.zones[z] with run := 0 }
    tOn := tOn
    tOff := tOff
    holdLimit := limit }

/-- R177: the rule of SET TOUCH. -/
def setTouchRule (payload : List Byte) (s : State) : State × Reply :=
  match payload with
  | [a0, a1, b0, b1, h] =>
    if touchSettingsGood (word16 a0 a1).toNat (word16 b0 b1).toNat h.toNat then
      (s.setTouch (s.touch.configure (word16 a0 a1).toNat (word16 b0 b1).toNat h.toNat), ⟨.ok, []⟩)
    else (s, .bare .badArgument)
  | _ => (s, .bare .badLength)

/-- SET_TOUCH. -/
def execSetTouch (b : CommandBody) (s : State) : Host.Outcome State Fault Refusal :=
  s.take 0x60 b setTouchRule

/-- R169: the baseline after a reading with delta `delta`, the zone state being that before the reading. -/
def trackBaseline (state : ZoneState) (baseline : Nat) (delta : Int) (tOff : Nat) : Nat :=
  if state = .clear ∧ delta < tOff then ((baseline : Int) + delta.tdiv 16).toNat else baseline

/-- R170: whether a reading points toward the other state. -/
def pointsAway (state : ZoneState) (delta : Int) (tOn tOff : Nat) : Bool :=
  match state with
  | .clear => decide ((tOn : Int) ≤ delta)
  | .touched | .expired => decide (delta < (tOff : Int))

/-- R168 to R170: a zone record after a reading, and whether its state has changed. -/
def Zone.read (z : Zone) (m tOn tOff : Nat) : Zone × Bool :=
  match z.baseline with
  | none => ({ z with baseline := some m }, false)
  | some b =>
    let delta : Int := (m : Int) - b
    let z1 := { z with baseline := some (trackBaseline z.state b delta tOff) }
    if !pointsAway z.state delta tOn tOff then ({ z1 with run := 0 }, false)
    else if z.run < 2 then ({ z1 with run := z.run + 1 }, false)
    else
      match z.state with
      | .clear => ({ z1 with state := .touched, run := 0 }, true)
      | .touched | .expired => ({ z1 with state := .clear, run := 0, hold := none }, true)

/-- R171, R174: a zone takes a new record; when its state has changed the neighbours are told, and a passage to
TOUCHED sets the reading band. -/
def State.zoneTakes (s : State) (z : Fin 16) (r : Zone × Bool) : State :=
  let t := s.setTouch { s.touch with zones := s.touch.zones.set z r.1 }
  if r.2 then
    if r.1.state = .touched then
      (t.setTouch { t.touch with band := bandOfZone z }).zoneChanged z (s.touch.band != bandOfZone z)
    else t.zoneChanged z false
  else t

/-- ZONE_READING: R168 to R171. -/
def execZoneReading (zone : Fin 16) (count : BitVec 12) (s : State) : Host.Outcome State Fault Refusal :=
  if s.resetPin then .next s
  else .next (s.zoneTakes zone (s.touch.zones[zone].read count.toNat s.touch.tOn s.touch.tOff))

/-- HOLD_TIMER_EXPIRY: R173. With the timer stopped, or the zone not TOUCHED, no expiry comes. -/
def execHoldTimerExpiry (zone : Fin 16) (s : State) : Host.Outcome State Fault Refusal :=
  let z := s.touch.zones[zone]
  if s.resetPin || z.hold == none || z.state != .touched then .next s
  else .next (s.zoneTakes zone ({ z with state := .expired, hold := none }, true))

end Sys2Proof.Machine
end

