-- ==== Sys2Proof/Machine/Flags.lean ====
section
/-! DEFINITION. The flags of the link: the bits of the link status byte and the ATTN line. They are functions
of the command buffer, the last response and the notice queue. -/

namespace Sys2Proof.Machine

/-- RESPONSE READY (R180, R183). -/
def Link.responseReady (l : Link) : Bool := l.response.isSome

/-- NOTICE PENDING (R180, R186). -/
def Link.noticePending (l : Link) : Bool := !l.notices.isEmpty

/-- BUSY (R180, R181). -/
def Link.busy (l : Link) : Bool := l.buffer.isSome

/-- ATTN is low while the notice queue holds a notice (R186). -/
def Link.attnLow (l : Link) : Bool := !l.notices.isEmpty

/-- The link status byte (R180): bits 3 to 7 are 0. -/
def Link.statusByte (l : Link) : Byte :=
  BitVec.ofNat 8 (l.responseReady.toNat + 2 * l.noticePending.toNat + 4 * l.busy.toNat)

/-- Whether `shown` can have been the status byte at the fall of chip select of a WRITE COMMAND whose chip select rises
now (R180, R191; log entry 19). No other transaction lies between the two, so a command that is in the buffer now
was there then. A command that was there and is gone has been taken in between, and its response is held now; with
none taken, RESPONSE READY is as it was. Only RESET empties the notice queue. -/
def Link.canHaveShown (l : Link) (shown : Byte) : Bool :=
  let taken := shown.getLsbD 2 && !l.busy
  decide (shown.toNat < 8) && (shown.getLsbD 2 || !l.busy) &&
    (if taken then l.responseReady else shown.getLsbD 0 == l.responseReady) &&
    (!shown.getLsbD 1 || l.noticePending || (taken && l.cause == .command))

end Sys2Proof.Machine
end

