-- ==== Sys2Proof/WellFormed.lean ====
section
/-! DEFINITION. Which terms of Instr stand for an event that its row can describe. The machine is total: an
ill-formed unknown command, and a WRITE COMMAND with an ill-formed status byte, leave the state as it is (log entry 2),
and an ill-formed status-only transaction is taken by its row's rule (log entry 19). -/

namespace Sys2Proof

/-- The 31 command codes of the catalogue (R185). -/
def catalogueCodes : List Byte :=
  [0x10, 0x11, 0x12, 0x13, 0x14, 0x20, 0x21, 0x22, 0x23, 0x24, 0x28, 0x29, 0x30, 0x31, 0x38, 0x39, 0x3A,
   0x40, 0x41, 0x48, 0x50, 0x51, 0x52, 0x53, 0x58, 0x59, 0x5A, 0x60, 0x70, 0x71, 0x7F]

/-- The transaction codes that name a transaction of their own (R180). -/
def transactionCodes : List Byte := [0x01, 0x02, 0x03]

/-- Whether a term of Instr stands for an event its row can describe: a status byte has bits 3 to 7 clear
(R180), a status-only transaction is one byte long or has an unknown code (R180), and an unknown
command's code is not in the catalogue (R182). -/
def Instr.wellFormed : Instr → Bool
  | .writeCommand shown _ => shown.toNat < 8
  | .statusOnlyTransaction code clocked => clocked == 0 || !transactionCodes.contains code
  | .unknownCommand code _ => !catalogueCodes.contains code
  | _ => true

end Sys2Proof
end

