-- ==== Sys2Proof/Machine/Transactions.lean ====
section
/-! DEFINITION. The SPI transactions (R180, R181, R183, R186), commands not in the catalogue (R182), and the
Link Interface's own commands (R187, R188). -/

namespace Sys2Proof.Machine

/-- The state with the bytes that the latest transaction shifted out. -/
def State.shiftOut (s : State) (bytes : List Byte) : State := s.setLink { s.link with shiftedOut := bytes }

/-- R189: while the RESET pin is asserted a transaction shifts out 0x00 and changes nothing; `n` bytes are
clocked after the first. -/
def State.shiftZeros (s : State) (n : Nat) : State := s.shiftOut (List.replicate (n + 1) 0)

/-- R184: a command frame from the bytes clocked in, none with fewer than the four header bytes. -/
def readFrame : List Byte → Option CommandFrame
  | code :: tag :: l0 :: l1 :: payload => some ⟨code, ⟨tag, word16 l0 l1, payload⟩⟩
  | _ => none

/-- WRITE_COMMAND: R181. The row is the rise of chip select; `shown` is the status byte that was taken at its fall and
shifted out. A byte that the link cannot have shown is that of no transaction, and the state is left as it is (log
entries 2 and 19). The frame is ignored when it is too short, or when the transaction's own status byte showed
BUSY. -/
def execWriteCommand (shown : Byte) (bytes : List Byte) (s : State) : Host.Outcome State Fault Refusal :=
  if s.resetPin then .next (s.shiftZeros bytes.length)
  else if !s.link.canHaveShown shown then .next s
  else
    let t := s.shiftOut (shown :: List.replicate bytes.length 0)
    if shown.getLsbD 2 then .next t
    else match readFrame bytes with
      | some f => .next (t.setLink { t.link with buffer := some f })
      | none => .next t

/-- R183: the frame that a READ RESPONSE takes. -/
def Link.responseFrame (l : Link) : List Byte :=
  match l.response with
  | some r => r.frame
  | none => noResponseFrame

/-- READ_RESPONSE: R183. A transaction of the status byte alone changes nothing (R180). The status byte is taken
before the response is removed, in the same event, so that it shows RESPONSE READY for the response that follows
it: the manual gives no order (log entry 24). -/
def execReadResponse (clocked : Nat) (s : State) : Host.Outcome State Fault Refusal :=
  if s.resetPin then .next (s.shiftZeros clocked)
  else if clocked = 0 then .next (s.shiftOut [s.link.statusByte])
  else .next (s.setLink { s.link with
    response := none
    shiftedOut := s.link.statusByte :: clockOut s.link.responseFrame clocked })

/-- R186: the frame that a READ NOTICE takes. -/
def Link.noticeFrame (l : Link) : List Byte :=
  match l.notices with
  | n :: _ => n.frame
  | [] => noNoticeFrame

/-- READ_NOTICE: R186. A transaction of the status byte alone changes nothing (R180). The status byte is taken before
the head notice is removed, in the same event, so that it shows NOTICE PENDING for the notice that follows it: the
manual gives no order (log entry 24). -/
def execReadNotice (clocked : Nat) (s : State) : Host.Outcome State Fault Refusal :=
  if s.resetPin then .next (s.shiftZeros clocked)
  else if clocked = 0 then .next (s.shiftOut [s.link.statusByte])
  else .next (s.setLink { s.link with
    notices := s.link.notices.tail
    shiftedOut := s.link.statusByte :: clockOut s.link.noticeFrame clocked })

/-- R180: what a status-only transaction shifts out. The transaction code does not matter to it. -/
def statusOnlyBytes (l : Link) (_code : Byte) (clocked : Nat) : List Byte :=
  l.statusByte :: List.replicate clocked 0

/-- STATUS_ONLY_TRANSACTION: R180. -/
def execStatusOnlyTransaction (code : Byte) (clocked : Nat) (s : State) : Host.Outcome State Fault Refusal :=
  if s.resetPin then .next (s.shiftZeros clocked)
  else .next (s.shiftOut (statusOnlyBytes s.link code clocked))

/-- UNKNOWN_COMMAND: R182. A code of the catalogue is no event of this row. -/
def execUnknownCommand (code : Byte) (b : CommandBody) (s : State) : Host.Outcome State Fault Refusal :=
  if s.takes code b && !catalogueCodes.contains code then
    .next (s.respond code b.tag (.bare .unknownCommand))
  else .next s

/-- R187: the rule of SET NOTICE MASK. -/
def setNoticeMaskRule (payload : List Byte) (s : State) : State × Reply :=
  match payload with
  | [m0, m1] =>
    if (word16 m0 m1).toNat < 512 then
      (s.setLink { s.link with mask := (word16 m0 m1).setWidth 9 }, ⟨.ok, []⟩)
    else (s, .bare .badArgument)
  | _ => (s, .bare .badLength)

/-- SET_NOTICE_MASK. -/
def execSetNoticeMask (b : CommandBody) (s : State) : Host.Outcome State Fault Refusal :=
  s.take 0x70 b setNoticeMaskRule

/-- R188: the rule of READ STATUS. -/
def readStatusRule (_payload : List Byte) (s : State) : State × Reply := (s, ⟨.ok, putStatus s⟩)

/-- READ_STATUS. -/
def execReadStatus (b : CommandBody) (s : State) : Host.Outcome State Fault Refusal :=
  s.take 0x71 b readStatusRule

end Sys2Proof.Machine
end

