-- ==== Sys2Proof/Machine/Dispatch.lean ====
section
/-! DEFINITION. The effect of each row on everything but the queue: one arm per constructor. -/

namespace Sys2Proof.Machine

def exec (i : Instr) (s : State) : Host.Outcome State Fault Refusal :=
  match i with
  | .writeCommand shown bytes => Sys2Proof.Machine.execWriteCommand shown bytes s
  | .readResponse clocked => Sys2Proof.Machine.execReadResponse clocked s
  | .readNotice clocked => Sys2Proof.Machine.execReadNotice clocked s
  | .statusOnlyTransaction code clocked => Sys2Proof.Machine.execStatusOnlyTransaction code clocked s
  | .unknownCommand code body => Sys2Proof.Machine.execUnknownCommand code body s
  | .openLoad body => Sys2Proof.Machine.execOpenLoad body s
  | .data body => Sys2Proof.Machine.execData body s
  | .commit body => Sys2Proof.Machine.execCommit body s
  | .cancelLoad body => Sys2Proof.Machine.execCancelLoad body s
  | .setControlCodes body => Sys2Proof.Machine.execSetControlCodes body s
  | .queryEntry body => Sys2Proof.Machine.execQueryEntry body s
  | .listEntries body => Sys2Proof.Machine.execListEntries body s
  | .patchCells body => Sys2Proof.Machine.execPatchCells body s
  | .retire body => Sys2Proof.Machine.execRetire body s
  | .setEntry body => Sys2Proof.Machine.execSetEntry body s
  | .addMark body => Sys2Proof.Machine.execAddMark body s
  | .dropMarks body => Sys2Proof.Machine.execDropMarks body s
  | .sweep body => Sys2Proof.Machine.execSweep body s
  | .abortSweep body => Sys2Proof.Machine.execAbortSweep body s
  | .showKey body => Sys2Proof.Machine.execShow body s
  | .declineMiss body => Sys2Proof.Machine.execDeclineMiss body s
  | .setNavigation body => Sys2Proof.Machine.execSetNavigation body s
  | .setStatus body => Sys2Proof.Machine.execSetStatus body s
  | .setGlyphs body => Sys2Proof.Machine.execSetGlyphs body s
  | .setCalendar body => Sys2Proof.Machine.execSetCalendar body s
  | .setDrive body => Sys2Proof.Machine.execSetDrive body s
  | .pauseDrive body => Sys2Proof.Machine.execPauseDrive body s
  | .resumeDrive body => Sys2Proof.Machine.execResumeDrive body s
  | .survey body => Sys2Proof.Machine.execSurvey body s
  | .readFaults body => Sys2Proof.Machine.execReadFaults body s
  | .clearFaults body => Sys2Proof.Machine.execClearFaults body s
  | .readRow body => Sys2Proof.Machine.execReadRow body s
  | .setTouch body => Sys2Proof.Machine.execSetTouch body s
  | .setNoticeMask body => Sys2Proof.Machine.execSetNoticeMask body s
  | .readStatus body => Sys2Proof.Machine.execReadStatus body s
  | .resetCommand body => Sys2Proof.Machine.execResetCommand body s
  | .powerOnReset => Sys2Proof.Machine.execPowerOnReset s
  | .pinReset => Sys2Proof.Machine.execPinReset s
  | .keySample prev next mark seek call => Sys2Proof.Machine.execKeySample prev next mark seek call s
  | .timeout slot => Sys2Proof.Machine.execTimeout slot s
  | .sweepVisit => Sys2Proof.Machine.execSweepVisit s
  | .blinkTimerExpiry => Sys2Proof.Machine.execBlinkTimerExpiry s
  | .zoneReading zone count => Sys2Proof.Machine.execZoneReading zone count s
  | .holdTimerExpiry zone => Sys2Proof.Machine.execHoldTimerExpiry zone s
  | .refillUnitArrival => Sys2Proof.Machine.execRefillUnitArrival s
  | .strokeStart => Sys2Proof.Machine.execStrokeStart s
  | .strokeCompletion sensed => Sys2Proof.Machine.execStrokeCompletion sensed s
  | .supplyFall => Sys2Proof.Machine.execSupplyFall s
  | .supplyRise => Sys2Proof.Machine.execSupplyRise s
  | .resetPinAsserted => Sys2Proof.Machine.execResetPinAsserted s

end Sys2Proof.Machine
end

