-- ==== Sys2Proof/Safety.lean ====
section
/-! DEFINITION. What counts as a safe state of the part, and the terms in which the claims speak: which command
a row carries, what an answer does to the link, what the pin path may change, and the invariants that the
rules give and every event keeps. -/

namespace Sys2Proof.Machine

/-! ### Commands and answers -/

/-- The row in which a buffered command with a code of the catalogue is taken or refused (R185). -/
def commandRow (code : Byte) (b : CommandBody) : Option Instr :=
  if code = 0x10 then some (.openLoad b)
  else if code = 0x11 then some (.data b)
  else if code = 0x12 then some (.commit b)
  else if code = 0x13 then some (.cancelLoad b)
  else if code = 0x14 then some (.setControlCodes b)
  else if code = 0x20 then some (.queryEntry b)
  else if code = 0x21 then some (.listEntries b)
  else if code = 0x22 then some (.patchCells b)
  else if code = 0x23 then some (.retire b)
  else if code = 0x24 then some (.setEntry b)
  else if code = 0x28 then some (.addMark b)
  else if code = 0x29 then some (.dropMarks b)
  else if code = 0x30 then some (.sweep b)
  else if code = 0x31 then some (.abortSweep b)
  else if code = 0x38 then some (.showKey b)
  else if code = 0x39 then some (.declineMiss b)
  else if code = 0x3A then some (.setNavigation b)
  else if code = 0x40 then some (.setStatus b)
  else if code = 0x41 then some (.setGlyphs b)
  else if code = 0x48 then some (.setCalendar b)
  else if code = 0x50 then some (.setDrive b)
  else if code = 0x51 then some (.pauseDrive b)
  else if code = 0x52 then some (.resumeDrive b)
  else if code = 0x53 then some (.survey b)
  else if code = 0x58 then some (.readFaults b)
  else if code = 0x59 then some (.clearFaults b)
  else if code = 0x5A then some (.readRow b)
  else if code = 0x60 then some (.setTouch b)
  else if code = 0x70 then some (.setNoticeMask b)
  else if code = 0x71 then some (.readStatus b)
  else if code = 0x7F then some (.resetCommand b)
  else none

/-- A command frame's body whose declared length is that of its payload. -/
def frameOf (tag : Byte) (payload : List Byte) : CommandBody := ⟨tag, BitVec.ofNat 16 payload.length, payload⟩

/-- The part can take the frame now: the RESET pin is not asserted, and no other frame is in the buffer
(R181, R189; log entry 3). -/
abbrev State.Accepts (s : State) (code : Byte) (b : CommandBody) : Prop :=
  s.resetPin = false ∧ (s.link.buffer = none ∨ s.link.buffer = some ⟨code, b⟩)

/-- The Link Interface after an answer (R181, R183): the buffer is empty and the response is held. -/
def Link.answer (l : Link) (code tag : Byte) (status : Status) (payload : List Byte) : Link :=
  { l with buffer := none, response := some ⟨tag, code, status, payload⟩, served := l.served + 1 }

/-- The state after an answer: nothing but the link changes. -/
def State.answer (s : State) (code tag : Byte) (status : Status) (payload : List Byte) : State :=
  { s with link := s.link.answer code tag status payload }

/-- The bytes of a condition (R184). The revision bytes of UNCONDITIONAL are ignored: `x` and `y` stand for them. -/
def Condition.bytes (c : Condition) (x y : Byte) : List Byte :=
  match c with
  | .unconditional => [0, x, y]
  | .ifRevision r => 1 :: put16 r

/-- The bytes of a commit condition (R184), `x` and `y` standing for revision bytes that are ignored. -/
def CommitCondition.bytes (c : CommitCondition) (x y : Byte) : List Byte :=
  match c with
  | .ifRevision r => 1 :: put16 r
  | .newOnly => [2, x, y]
  | .any => [3, x, y]

/-- The payload of OPEN LOAD (R185). -/
def OpenArgs.bytes (a : OpenArgs) (x y : Byte) : List Byte :=
  putKey a.key ++ [a.kind.code, a.group.setWidth 8, putBool a.pinned] ++ a.condition.bytes x y

/-- The payload of a sweep descriptor (R184); the operands of absent actions are sent as 0. -/
def SweepDescriptor.bytes (d : SweepDescriptor) : List Byte :=
  [putBool d.document.isSome, (d.document.getD 0).setWidth 8] ++ put16 d.first ++ put16 d.last ++
    [d.mask.setWidth 8, d.v0.setWidth 8, d.v1.setWidth 8,
      put8 (d.retire.toNat + 2 * d.setPin.isSome.toNat + 4 * d.setGroup.isSome.toNat +
        8 * d.clearMarks.isSome.toNat + 16 * d.moveDoc.isSome.toNat),
      putBool (d.setPin.getD false), (d.setGroup.getD 0).setWidth 8,
      ((d.clearMarks.map Prod.fst).getD 0).setWidth 8, ((d.clearMarks.map Prod.snd).getD 0).setWidth 8,
      (d.moveDoc.getD 0).setWidth 8]

/-- R84, R85: RETIRE stands alone, or there is at least one other action; the page range is in order. -/
abbrev SweepDescriptor.Valid (d : SweepDescriptor) : Prop :=
  d.first.toNat ≤ d.last.toNat ∧
  (if d.retire then d.setPin = none ∧ d.setGroup = none ∧ d.clearMarks = none ∧ d.moveDoc = none
   else d.setPin ≠ none ∨ d.setGroup ≠ none ∨ d.clearMarks ≠ none ∨ d.moveDoc ≠ none)

/-- R83: an entry matches the criteria. -/
abbrev SweepDescriptor.Takes (d : SweepDescriptor) (e : Entry) : Prop :=
  (e.state = .ready ∨ e.state = .shown) ∧ ∃ k ∈ e.key,
    (∀ doc ∈ d.document, k.doc = doc) ∧ d.first.toNat ≤ k.page.toNat ∧ k.page.toNat ≤ d.last.toNat ∧
    (e.group &&& d.mask = d.v0 ∨ e.group &&& d.mask = d.v1)

/-- The five commands that check a visible entry by R13 (R18 to R20, R52, R54), with arguments in range: the code, the
key, the condition and the payload. SET ENTRY carries no condition. -/
inductive EntryCommand : Byte → Key → Condition → List Byte → Prop
  | patch (k : Key) (c : Condition) (x y : Byte) (line : Fin 32) (first : Nat) (cells : List Byte)
      (ne : cells ≠ []) (fits : first + cells.length ≤ 40) :
      EntryCommand 0x22 k c (putKey k ++ c.bytes x y ++ [put8 line.val, put8 first] ++ cells)
  | retire (k : Key) (c : Condition) (x y : Byte) : EntryCommand 0x23 k c (putKey k ++ c.bytes x y)
  | setEntry (k : Key) (pinned : Bool) (group : BitVec 4) :
      EntryCommand 0x24 k .unconditional (putKey k ++ [putBool pinned, group.setWidth 8])
  | addMark (k : Key) (c : Condition) (x y : Byte) (cls : MarkClass) (line : Fin 32) (first length : Nat)
      (one : 1 ≤ length) (fits : first + length ≤ 40) :
      EntryCommand 0x28 k c
        (putKey k ++ c.bytes x y ++ [put8 cls.code, put8 line.val, put8 first, put8 length])
  | dropMarks (k : Key) (c : Condition) (x y : Byte) (classes : BitVec 4) (owners : BitVec 2)
      (line : Option (Fin 32)) :
      EntryCommand 0x29 k c
        (putKey k ++ c.bytes x y ++ [classes.setWidth 8, owners.setWidth 8, putIndexOr (line.map Fin.val)])

/-- The control-code table that 24 bytes spell (R184): of each entry a code byte, the flags and an action. An action
number above 5 names no action; the other flag bits, and the code byte of an entry without a code, are ignored. -/
abbrev SpellsCodes (table : List Byte) (codes : Vector ControlEntry 8) : Prop :=
  table.length = 24 ∧ ∀ j : Fin 8,
    codes[j].code = (if (table.getD (3 * j.val + 1) 0).getLsbD 0 = true then some (table.getD (3 * j.val) 0)
      else none) ∧
    codes[j].last = (table.getD (3 * j.val + 1) 0).getLsbD 1 ∧
    codes[j].action = [ControlAction.lineEnd, .pageEnd, .repeatCell, .skip, .markOpen,
      .markClose][(table.getD (3 * j.val + 2) 0).toNat]?

/-- The payload lengths that the catalogue allows (R185): a command code with the least and the greatest length of a
range. -/
def payloadLengths : List (Byte × Nat × Nat) :=
  [(0x10, 9, 9), (0x11, 2, 257), (0x12, 1, 1), (0x12, 4, 4), (0x13, 1, 1), (0x14, 25, 25), (0x20, 3, 3), (0x21, 2, 2),
   (0x22, 9, 48), (0x23, 6, 6), (0x24, 5, 5), (0x28, 10, 10), (0x29, 9, 9), (0x30, 15, 15), (0x31, 0, 0), (0x38, 3, 3),
   (0x39, 0, 0), (0x3A, 1, 1), (0x40, 33, 33), (0x41, 13, 13), (0x48, 17, 17), (0x50, 4, 4), (0x51, 0, 0), (0x52, 0, 0),
   (0x53, 0, 0), (0x58, 0, 0), (0x59, 3, 3), (0x5A, 1, 1), (0x60, 5, 5), (0x70, 2, 2), (0x71, 0, 0), (0x7F, 0, 0)]

/-- R185: the catalogue allows a payload of `n` bytes for a command code. -/
abbrev LengthListed (code : Byte) (n : Nat) : Prop := ∃ l ∈ payloadLengths, l.1 = code ∧ l.2.1 ≤ n ∧ n ≤ l.2.2

/-- The ten bytes of a position set in READ ROW (R184): bit k of byte j is column 8j + k. -/
abbrev SpellsRow (bytes : List Byte) (p : PinRow) : Prop :=
  bytes.length = 10 ∧ ∀ c : Fin 80, (bytes.getD (c.val / 8) 0).getLsbD (c.val % 8) = p.getLsbD c.val

/-- R63: a sample registers a press. -/
abbrev Debouncer.Registers (d : Debouncer) (down : Bool) : Prop := d.pressed = false ∧ down = true ∧ 2 ≤ d.run

/-- R63: the debouncers after a sample. -/
abbrev Sampled (keys : Vector Debouncer 5) (down : Vector Bool 5) (next : Vector Debouncer 5) : Prop :=
  ∀ j : Fin 5, next[j] =
    if down[j] = keys[j].pressed then { keys[j] with run := 0 }
    else if keys[j].run < 2 then { keys[j] with run := keys[j].run + 1 }
    else ⟨down[j], 0⟩

/-- R63: exactly the key `who` registers a press at a sample, or none does. -/
abbrev OnlyPresses (keys : Vector Debouncer 5) (down : Vector Bool 5) (who : Option (Fin 5)) : Prop :=
  ∀ j : Fin 5, keys[j].Registers down[j] ↔ who = some j

/-- `i` is the least index of which `p` holds. -/
abbrev LeastIndex {n : Nat} (p : Fin n → Prop) (i : Fin n) : Prop := p i ∧ ∀ j : Fin n, j < i → ¬ p j

end Sys2Proof.Machine

namespace Sys2Proof

/-! ### Rows that are transactions, and rows that come from outside the part's own clock -/

/-- The rows that are SPI transactions (R180). -/
def Instr.isTransaction : Instr → Bool
  | .writeCommand _ _ | .readResponse _ | .readNotice _ | .statusOnlyTransaction _ _ => true
  | _ => false

/-- The rows that are edges of an input pin or of the power: resets, and the comparator (R146, R147, R189). -/
def Instr.isPinEdge : Instr → Bool
  | .powerOnReset | .pinReset | .resetPinAsserted | .supplyFall | .supplyRise => true
  | _ => false

end Sys2Proof

namespace Sys2Proof.Machine

/-! ### What a read transaction shifts out, and what a load's rows do -/

/-- R180: a transaction shifts out the status byte and then the frame, 0x00 beyond its end, `clocked` bytes in all. -/
def Link.ShiftsOut (l : Link) (frame : List Byte) (clocked : Nat) (out : List Byte) : Prop :=
  out.length = clocked + 1 ∧ out[0]? = some l.statusByte ∧ ∀ j : Nat, j < clocked → out[j + 1]? = some (frame.getD j 0)

/-- R180, R191: `shown` can have been the status byte at the fall of chip select of a WRITE COMMAND that ends now (log
entry 19): a command that is in the buffer now was there then; one that was there and is gone has been answered since,
and without that RESPONSE READY is as it was; and only a RESET taken since has emptied the notice queue. -/
structure Link.MayHaveShown (l : Link) (shown : Byte) : Prop where
  reserved : ∀ k, 3 ≤ k → shown.getLsbD k = false
  busy : l.buffer ≠ none → shown.getLsbD 2 = true
  answered : shown.getLsbD 2 = true → l.buffer = none → l.response ≠ none
  ready : shown.getLsbD 2 = false ∨ l.buffer ≠ none → shown.getLsbD 0 = l.response.isSome
  notices : shown.getLsbD 1 = true → l.notices ≠ [] ∨
    (shown.getLsbD 2 = true ∧ l.buffer = none ∧ l.cause = .command)

/-- R1, R22, R25: `t` is `s` after an OPEN LOAD of `a` that chose `slot` and entry `i`, but for the link. -/
structure State.Opened (s t : State) (a : OpenArgs) (slot : Fin 2) (i : Fin 48) : Prop where
  others : t = { s with
    link := t.link
    dir := t.dir
    load := { s.load with slots := s.load.slots.set slot (some
      { complete := false, entry := i, key := a.key, kind := a.kind, condition := a.condition, offset := 0,
        position := 0, text := .plain, openMark := none, dropped := 0 }) } }
  entries : t.dir.entries = s.dir.entries.set i
    { state := .loading, key := some a.key, kind := a.kind, revision := 0, pinned := a.pinned, group := a.group,
      held := false, marks := [], slot := some slot }
  queue : t.dir.queue = s.dir.queue.filter (· ≠ i)
  frames : ∀ (j : Fin 48) (o : Nat), o < 1280 →
    t.dir.frameByte j o = if j = i then 0 else s.dir.frameByte j o

/-- R36: a mark list and a dropped count after the offer of a closed mark: one of length 0 and one that is there
already are not recorded, and on a full list it is counted as dropped, up to 255. -/
def offered (marks : List Mark) (dropped : Nat) (m : Mark) : List Mark × Nat :=
  if m.length = 0 ∨ m ∈ marks then (marks, dropped)
  else if 8 ≤ marks.length then (marks, min 255 (dropped + 1))
  else (marks ++ [m], dropped)

/-- R35, R36: a mark list and a dropped count after the open mark of the record `r`, if it has one, was closed at a cell
of its line. -/
def LoadSlot.closing (r : LoadSlot) (marks : List Mark) (cell : Nat) : List Mark × Nat :=
  match r.openMark with
  | none => (marks, r.dropped)
  | some o => offered marks r.dropped ⟨o.cls, .supplied, Fin.ofNat 32 o.line, o.cell, cell - o.cell⟩

/-- R36: the open mark, the mark list and the dropped count after the stream of `r` has gone on to position `next`: an
open mark is closed at the end of its line when the line is left. -/
def LoadSlot.leaving (r : LoadSlot) (marks : List Mark) (next : Nat) : Option OpenMark × List Mark × Nat :=
  if r.position / 40 = next / 40 then (r.openMark, marks, r.dropped) else (none, r.closing marks 40)

/-- R27: `t` is `s` after a DATA on slot `i`, whose record was `r`, that consumed `consumed` bytes and discarded
`discarded`: the stream stands at frame byte `next` with no element begun, `cell o` is what it wrote to byte `o` of the
entry's frame, if anything, and `close` is the open mark, the entry's mark list and the dropped count. -/
structure State.Streamed (s t : State) (tag : Byte) (i : Fin 2) (r : LoadSlot) (consumed discarded next : Nat)
    (cell : Nat → Option Byte) (close : Option OpenMark × List Mark × Nat) : Prop where
  others : t = ({ s with
      dir := { s.dir with
        entries := s.dir.entries.set r.entry { s.dir.entries[r.entry] with marks := close.2.1 }
        frames := t.dir.frames }
      load := { s.load with slots := s.load.slots.set i (some { r with
        offset := r.offset + consumed
        position := next
        complete := decide (next = 1280)
        openMark := close.1
        dropped := close.2.2 }) } }).answer 0x11 tag .ok
    (putNat16 consumed ++ putNat16 discarded ++ [if next = 1280 then 2 else 1] ++
      (if r.kind = Kind.text then [put8 (next / 40), put8 (next % 40)] else putNat16 next) ++
      [put8 close.2.1.length, put8 close.2.2])
  frames : ∀ (j : Fin 48) (o : Nat), o < 1280 →
    t.dir.frameByte j o = if j = r.entry then (cell o).getD (s.dir.frameByte j o) else s.dir.frameByte j o

/-- R1, R23: `s` after slot `i`, whose record was `r`, has become IDLE and its entry FREE. -/
def State.unloaded (s : State) (i : Fin 2) (r : LoadSlot) : State :=
  { s with
    load := { s.load with slots := s.load.slots.set i none }
    dir := { s.dir with
      entries := s.dir.entries.set r.entry Entry.free
      queue := s.dir.queue.filter (· ≠ r.entry) } }

/-- R87, R93: `s` after the visit that the sweep `r` has made: the progress moves on, or the pass ends. -/
def State.visited (s : State) (r : SweepRun) : State :=
  if h : r.progress.val < 47 then { s with sweep := some { r with progress := ⟨r.progress.val + 1, by omega⟩ } }
  else { s.post (.sweepDone r.matched r.changed r.skippedShown r.collisions false) with sweep := none }

/-- R141: a plan has started: its cost is drawn, and it is in flight. -/
def Drive.fly (d : Drive) (p : Plan) : Drive := { d with cond := .inFlight p, level := d.level - p.cost }

/-- R159: the calendar when a stroke of a kind starts: the visit in progress is no quiet one, and a drive stroke empties
the quiet set. -/
def Calendar.strokeStarted (c : Calendar) (kind : StrokeKind) : Calendar :=
  { c with
    visit := c.visit.map fun v => { v with started := true }
    quiet := if kind = .drive then [] else c.quiet }

/-- R139, R161: a survey of row `r` is held: it starts when the level is 10 or more, and waits otherwise. -/
def State.surveys (s : State) (r : Fin 128) : State :=
  let p : Plan := ⟨.survey, r, [], 10, s.drive.strokeTime⟩
  if 10 ≤ s.drive.level then { s with drive := s.drive.fly p, cal := s.cal.strokeStarted .survey }
  else { s with drive := { s.drive with cond := .waitCharge p } }

/-- R145, R158, R161 to R163: `t` is `s`, whose drive holds no plan any more, after the Row Calendar was told that the
stroke has completed. In SURVEYING the lowest unknown row is surveyed next; with no row unknown the survey is complete,
and DRIVE is posted with the state that follows; the hold flag makes that state PAUSED, and lets no request follow. In
DRIVING the row of the visit has had one more stroke, and the visits go on unless the hold flag is set. -/
structure State.TellsCompleted (s t : State) : Prop where
  survey : ∀ r, s.cal.sched = .surveying → LeastIndex (fun r : Fin 128 => s.pins.known[r] = false) r →
    t = if s.cal.hold then { s with cal := { s.cal with sched := .paused } } else s.surveys r
  surveyed : s.cal.sched = .surveying → (∀ r : Fin 128, s.pins.known[r] = true) →
    t = if s.cal.hold then { s with cal := { s.cal with sched := .paused } }.post (.drive .paused s.drive.supply)
      else ({ s with cal := { s.cal with sched := .driving } }.post (.drive .driving s.drive.supply)).driveOn
  drive : ∀ v, s.cal.sched = .driving → s.cal.visit = some v →
    t = if s.cal.hold then
        { (s.countStroke v).1 with cal := { (s.countStroke v).1.cal with sched := .paused } }
      else State.goOn (s.countStroke v)
  begun : s.cal.sched = .driving → s.cal.visit = none →
    t = if s.cal.hold then { s with cal := { s.cal with sched := .paused } }
      else State.runCalendar Config.calendarFuel s
  others : s.cal.sched ≠ .surveying → s.cal.sched ≠ .driving → t = s

/-- The moves of a DRIVING scheduler in one event (R158): one after another, until one holds a plan or comes to IDLE. -/
inductive State.Moves : State → State → Prop
  | last {s t : State} (h : s.calendarMove = (t, false)) : State.Moves s t
  | next {s t u : State} (h : s.calendarMove = (t, true)) (k : State.Moves t u) : State.Moves s u

/-- The number of columns below `c`, in the bank of `c` (R133), of which `p` holds. -/
def bankBelow (p : Fin 80 → Bool) (c : Fin 80) : Nat :=
  (List.finRange 80).countP fun j => decide (j.val / 20 = c.val / 20) && decide (j < c) && p j

/-! ### What the pin path may change -/

/-- The notices of every kind but SETTLE, in their order. -/
def otherNotices (q : List Notice) : List Notice := q.filter fun n => n.kindCode != 9

/-- Whether a scheduler state is DRIVING or IDLE, between which waking and settling pass (R159, R160). -/
def Scheduler.atWork (x : Scheduler) : Bool := x == .driving || x == .idle

/-- `t` differs from `s` only in what the pin path changes when it reacts to an event (00, Paths through the part):
targets and mark pins, attempt counts, the plan and the level, the visits of the calendar, hold timers, and a
SETTLE notice. Everything else is as in `s`. -/
structure PinPath (s t : State) : Prop where
  pending : t.pending = s.pending
  resetPin : t.resetPin = s.resetPin
  supplyPin : t.supplyPin = s.supplyPin
  link : t.link = { s.link with notices := t.link.notices }
  notices : otherNotices t.link.notices = otherNotices s.link.notices
  dir : t.dir = s.dir
  load : t.load = s.load
  sweep : t.sweep = s.sweep
  nav : t.nav = s.nav
  comp : t.comp = { s.comp with target := t.comp.target, markPins := t.comp.markPins }
  pins : t.pins = { s.pins with attempts := t.pins.attempts }
  drive : t.drive = { s.drive with cond := t.drive.cond, level := t.drive.level }
  hold : t.cal.hold = s.cal.hold
  slots : t.cal.slots.map (fun c => (c.first, c.last, c.count, c.follow)) =
    s.cal.slots.map (fun c => (c.first, c.last, c.count, c.follow))
  sched : t.cal.sched = s.cal.sched ∨ (s.cal.sched.atWork = true ∧ t.cal.sched.atWork = true)
  touch : t.touch = { s.touch with zones := t.touch.zones }
  zones : ∀ z : Fin 16, t.touch.zones[z] = { s.touch.zones[z] with hold := t.touch.zones[z].hold }

/-! ### What navigation does when it is told of a key (R67, R68, R74 to R77) -/

/-- R67, R68: what navigation itself does when it evaluates the wanted key `k`, by the lookup of the key: `u` is `s` with
the entry shown and SHOWN posted, or waiting for the reason there is, the miss of an absent key being captured by an
unlocked miss record. -/
structure State.EvaluatedTo (s : State) (cause : ShownCause) (k : Key) (u : State) : Prop where
  visible : ∀ v, s.dir.visibleEntry k = some v → s.dir.entries[v].held = false →
    u = { s with
      dir := if s.dir.entries[v].state = EntryState.shown then s.dir else s.dir.showEntry v
      nav := { s.nav with shownKey := some k, cond := .settled } }.post (.shown k cause)
  held : ∀ v, s.dir.visibleEntry k = some v → s.dir.entries[v].held = true →
    u = { s with nav := { s.nav with cond := .waitSweep } }
  loading : ∀ i : Fin 48, s.dir.visibleEntry k = none → s.dir.entries[i].state = .loading →
    s.dir.entries[i].key = some k → u = { s with nav := { s.nav with cond := .waitLoad } }
  absent : (∀ i : Fin 48, s.dir.entries[i].state ≠ .free → s.dir.entries[i].key ≠ some k) →
    u = if s.nav.missLocked then { s with nav := { s.nav with cond := .waitMiss } }
      else { s with nav := { s.nav with cond := .waitMiss, missKey := some k, missLocked := true } }.post (.miss k)

/-- R67, R104, R109: `t` is `s` after its wanted key was evaluated. A newly shown entry has its whole page composed, a
passage between SETTLED and waiting composes an enabled status line, and the pin path follows; without either nothing
follows. -/
def State.Evaluates (s : State) (cause : ShownCause) (t : State) : Prop :=
  ∀ k, s.nav.wantedKey = some k → ∃ u, s.EvaluatedTo cause k u ∧ PinPath u t ∧
    (u.dir ≠ s.dir → ∀ r : Fin 128, t.comp.target[r] = t.composeRow r) ∧
    (((s.nav.cond = .settled) ≠ (u.nav.cond = .settled)) → s.comp.statusOn = true →
      ∀ r : Fin 128, 124 ≤ r.val → t.comp.target[r] = t.composeRow r) ∧
    (u.dir = s.dir → ((s.nav.cond = .settled ↔ u.nav.cond = .settled) ∨ s.comp.statusOn = false) → t = u)

/-- R75, R76: `t` is `s` after navigation was told that a load of key `k` has ended without a commit, or that a HELD entry
of key `k` was released: a waiting navigation that wants the key evaluates it. -/
def State.TellsKey (s : State) (k : Key) (t : State) : Prop :=
  if s.nav.cond ≠ .settled ∧ s.nav.wantedKey = some k then s.Evaluates .nav t else t = s

/-- R74: `t` is `s` after navigation was told that a committed key `k` is visible: a miss record locked on it is
unlocked, and a navigation that waits evaluates its wanted key if that is `k`, or if the record was unlocked. -/
def State.TellsCommitted (s : State) (k : Key) (t : State) : Prop :=
  ∃ u : State, u = { s with nav := { s.nav with
      missLocked := s.nav.missLocked && decide (s.nav.missKey ≠ some k) } } ∧
    if s.nav.cond ≠ .settled ∧ s.nav.wantedKey = some k then u.Evaluates .commit t
    else if s.nav.cond ≠ .settled ∧ u.nav.missLocked ≠ s.nav.missLocked then u.Evaluates .nav t
    else t = u

/-- R77: `t` is `s` after navigation was told that a sweep moved an entry, the SHOWN one or not, from key `old` to `new`:
the shown key and the document follow the SHOWN entry, a miss record locked on `new` is unlocked, and a waiting
navigation evaluates its wanted key if it was `old`, is `new`, or has changed, or if the record was unlocked. -/
def State.TellsMoved (s : State) (old new : Key) (shown : Bool) (t : State) : Prop :=
  ∃ u : State, u = { s with nav := { s.nav with
      shownKey := if shown then some new else s.nav.shownKey
      document := if shown then new.doc else s.nav.document
      missLocked := s.nav.missLocked && decide (s.nav.missKey ≠ some new) } } ∧
    if s.nav.cond ≠ .settled ∧ (s.nav.wantedKey = some old ∨ u.nav.wantedKey = some new ∨
        u.nav.missLocked ≠ s.nav.missLocked ∨ u.nav.document ≠ s.nav.document) then u.Evaluates .nav t
    else t = u

/-! ### What a registered press does (R56, R57, R64, R69 to R71) -/

/-- R64: `t` is `s` after the press of a key was acted on, the keys numbered in the order of R64. KEY is posted first.
`turnedAway`: with the lock on, or no page wanted, PREV, NEXT and SEEK do nothing more, and neither does CALL, PREV at page
0 or NEXT at page 65535. -/
structure State.Presses (s : State) (key : Fin 5) (base t : State) : Prop where
  posted : base = s.post (.key (if key = 0 then 1 else 0) (if key = 1 then 1 else 0) (if key = 2 then 1 else 0)
    (if key = 3 then 1 else 0) (if key = 4 then 1 else 0))
  turnedAway : ((key ≠ 2 ∧ key ≠ 4 ∧ (s.nav.lock = true ∨ s.nav.wanted = none)) ∨ key = 4 ∨
    (key = 0 ∧ s.nav.wanted = some 0) ∨ (key = 1 ∧ s.nav.wanted = some 0xFFFF)) → t = base
  /-- PREV and NEXT want the page before and after, and evaluate its key (R69). -/
  pageStep : ∀ p q : BitVec 16, s.nav.lock = false → s.nav.wanted = some p →
    ((key = 0 ∧ q.toNat + 1 = p.toNat) ∨ (key = 1 ∧ q.toNat = p.toNat + 1)) →
    { base with nav := { base.nav with wanted := some q } }.Evaluates .nav t
  /-- SEEK wants, of the pages of the document that are visible, not HELD and carry a BOOKMARK, the smallest above the
  wanted page, or else the smallest, and evaluates its key; without such a page it does nothing more (R70). -/
  seek : ∀ (p : BitVec 16) (seekable : BitVec 16 → Prop), key = 3 → s.nav.lock = false → s.nav.wanted = some p →
    (∀ q, seekable q ↔ ∃ i : Fin 48, (s.dir.entries[i].state = .ready ∨ s.dir.entries[i].state = .shown) ∧
      s.dir.entries[i].key = some ⟨s.nav.document, q⟩ ∧ s.dir.entries[i].held = false ∧
      ∃ m ∈ s.dir.entries[i].marks, m.cls = .bookmark) →
    ((∀ q, ¬ seekable q) → t = base) ∧
    (∀ q, seekable q →
      ((p.toNat < q.toNat ∧ ∀ x, seekable x → p.toNat < x.toNat → q.toNat ≤ x.toNat) ∨
        ((∀ x, seekable x → x.toNat ≤ p.toNat) ∧ ∀ x, seekable x → q.toNat ≤ x.toNat)) →
      { base with nav := { base.nav with wanted := some q } }.Evaluates .nav t)
  /-- MARK toggles the patron bookmark of the reading band on the SHOWN TEXT entry, whose line is composed again; it does
  nothing more when no entry is SHOWN, when that is HELD or RAW, with the lock on, and on a full list that does not hold the
  mark (R56, R57). -/
  mark : ∀ m : Mark, key = 2 → m = ⟨.bookmark, .patron, firstLineOfBand s.touch.band, 0, 40⟩ →
    ((s.dir.shownEntry = none ∨ s.nav.lock = true ∨ ∃ v, s.dir.shownEntry = some v ∧
        (s.dir.entries[v].held = true ∨ s.dir.entries[v].kind = .raw ∨
          (m ∉ s.dir.entries[v].marks ∧ 8 ≤ s.dir.entries[v].marks.length))) → t = base) ∧
    (∀ (v : Fin 48) (marks : List Mark) (u : State), s.nav.lock = false → s.dir.shownEntry = some v →
      s.dir.entries[v].held = false → s.dir.entries[v].kind = .text →
      ((m ∈ s.dir.entries[v].marks ∧ marks = s.dir.entries[v].marks.filter (· ≠ m)) ∨
        (m ∉ s.dir.entries[v].marks ∧ s.dir.entries[v].marks.length < 8 ∧
          marks = s.dir.entries[v].marks ++ [m])) →
      u = { base with dir := { s.dir with entries := s.dir.entries.set v { s.dir.entries[v] with
        marks := marks, revision := s.dir.entries[v].revision + 1 } } } →
      PinPath u t ∧ t = u.recompose [m.line] ∧
        ∀ r : Fin 128, lineOfRow r = m.line → t.comp.target[r] = t.composeRow r)

/-! ### What a summary holds (R16) -/

/-- R16, R184: `bytes` is the summary of entry `i`. The page bytes of an absent key are free (log entry 7). -/
def State.Summary (s : State) (i : Fin 48) (bytes : List Byte) : Prop :=
  ∃ (e : Entry) (key : List Byte) (slot : Byte), e = s.dir.entries[i] ∧
    bytes = [put8 i.val, if e.state = .free then 0 else if e.state = .loading then 1 else
        if e.state = .ready then 2 else 3] ++ key ++
      [if e.kind = .text then 0 else 1, e.revision.setWidth 8, (e.revision >>> 8).setWidth 8,
        if e.pinned then 1 else 0, e.group.setWidth 8, if e.held then 1 else 0, slot, put8 e.marks.length] ++
      e.marks.flatMap (fun m =>
        [if m.cls = .cursor then 0 else if m.cls = .bookmark then 1 else if m.cls = .highlight then 2 else 3,
          if m.owner = .supplied then 0 else 1, put8 m.line.val, put8 m.first, put8 m.length]) ∧
    (∀ k, e.key = some k → key = [k.doc.setWidth 8, k.page.setWidth 8, (k.page >>> 8).setWidth 8]) ∧
    (e.key = none → ∃ x y, key = [0xFF, x, y]) ∧
    (e.state = .free → slot = 0xFF) ∧
    (e.state = .loading → slot = (e.slot.map fun j => put8 j.val).getD 0xFF) ∧
    ((e.state = .ready ∨ e.state = .shown) → ∀ k, e.key = some k →
      (∀ j, LeastIndex (fun j : Fin 2 => ∃ r ∈ s.load.slots[j], r.key = k) j → slot = put8 j.val) ∧
      ((∀ j : Fin 2, ∀ r ∈ s.load.slots[j], r.key ≠ k) → slot = 0xFF))

/-- R189: `s` after a reset of a kind: the values of State.reset, with the supply as the comparator reads, the fault table
kept by a pin and a command reset, and what is no state of a block as it was. -/
def State.afterReset (s : State) (kind : ResetKind) : State :=
  { State.reset with
    pending := s.pending
    resetPin := s.resetPin
    supplyPin := s.supplyPin
    link := { State.reset.link with cause := kind, shiftedOut := s.link.shiftedOut, served := s.link.served }
    pins := { State.reset.pins with faults := if kind = .powerOn then [] else s.pins.faults }
    drive := { State.reset.drive with
      supply := s.supplyPin
      cond := if s.supplyPin = .ok then State.reset.drive.cond else .noPlan }
    cal := { State.reset.cal with sched := if s.supplyPin = .ok then .surveying else .supplyLow } }

/-- R61, R108, R109: a line that renders marks, of the SHOWN TEXT entry, and has a cell under a CURSOR in a zone. -/
def State.CursorIn (s : State) (l : Fin 32) (z : Fin 16) : Prop :=
  ¬ (l = 31 ∧ s.comp.statusOn = true) ∧ ∃ i, s.dir.shownEntry = some i ∧ s.dir.entries[i].kind = .text ∧
    ∃ m ∈ s.dir.entries[i].marks, m.cls = .cursor ∧ m.line = l ∧
      ∃ c : Nat, c < 40 ∧ m.first ≤ c ∧ c < m.first + m.length ∧ zoneOfCell l c = z

/-- R108: the line is one that a change of blink phase composes again: it has a CURSOR cell in a zone that is CLEAR. -/
def State.Blinks (s : State) (l : Fin 32) : Prop := ∃ z, s.CursorIn l z ∧ s.touch.zones[z].state = .clear

/-- R171, R174 to R176: `t` answers a row in which zone `z` has taken the record `x` and changed its state: the reading
band is `band`, the pin path has followed, a follow slot's cursor has moved with the band, and TOUCH is posted. -/
def State.ZoneChanges (s : State) (z : Fin 16) (x : Zone) (band : Fin 8) (t : State) : Prop :=
  ∃ (base woken u : State) (zones : Vector ZoneState 16),
    base = { s with touch := { s.touch with zones := s.touch.zones.set z x, band := band } } ∧
    (∀ lines : List (Fin 32), (∀ l, l ∈ lines ↔ base.CursorIn l z) →
      woken = ((base.recompose lines).reform fun r => bandOfRow r == bandOfZone z).wake) ∧
    u = { woken with cal := if band = s.touch.band then woken.cal else { woken.cal with
      slots := woken.cal.slots.map fun c =>
        if c.follow then { c with cursor := firstLineOfBand band } else c } } ∧
    PinPath base u ∧
    (∀ j : Fin 16, zones[j] = if j = z then x.state else s.touch.zones[j].state) ∧
    t = u.post (.touch zones band)

/-! ### The directory and the load slots (R1 to R3, R7, R8, R10, R22) -/

/-- R1: what an entry holds in each of its states. -/
abbrev Entry.Shaped (e : Entry) : Prop :=
  (e.state = .free → e = Entry.free) ∧
  (e.state ≠ .free → e.key ≠ none) ∧
  (e.state = .loading → e.revision = 0 ∧ e.held = false) ∧
  (e.state ≠ .loading → e.slot = none)

/-- R2, R22, R23: a slot that is OPEN or COMPLETE and the LOADING entry it fills agree; every LOADING entry is
filled by a slot; the two slots hold different keys. -/
abbrev State.SlotsMatch (s : State) : Prop :=
  (∀ i : Fin 2, ∀ r ∈ s.load.slots[i],
    s.dir.entries[r.entry].state = .loading ∧ s.dir.entries[r.entry].slot = some i ∧
    s.dir.entries[r.entry].key = some r.key ∧ s.dir.entries[r.entry].kind = r.kind) ∧
  (∀ j : Fin 48, s.dir.entries[j].state = .loading →
    ∃ i : Fin 2, s.load.slots[i].map LoadSlot.entry = some j) ∧
  (∀ r ∈ s.load.slots[(0 : Fin 2)], ∀ q ∈ s.load.slots[(1 : Fin 2)], r.key ≠ q.key)

/-- R3: at most one visible entry holds any given key. -/
abbrev Directory.KeysUnique (d : Directory) : Prop :=
  ∀ i j : Fin 48, d.entries[i].visible = true → d.entries[j].visible = true →
    d.entries[i].key = d.entries[j].key → i = j

/-- R10: the reclaim queue holds exactly the READY entries that are not pinned, each once. -/
abbrev Directory.QueueExact (d : Directory) : Prop :=
  d.queue.Nodup ∧
  ∀ i : Fin 48, i ∈ d.queue ↔ d.entries[i].state = .ready ∧ d.entries[i].pinned = false

/-- R7: at most one entry is SHOWN, and navigation names its key, or none. -/
abbrev State.ShownAgrees (s : State) : Prop :=
  (∀ i j : Fin 48, s.dir.entries[i].state = .shown → s.dir.entries[j].state = .shown → i = j) ∧
  (∀ i : Fin 48, s.dir.entries[i].state = .shown → s.nav.shownKey = s.dir.entries[i].key) ∧
  (s.nav.shownKey ≠ none → ∃ i : Fin 48, s.dir.entries[i].state = .shown)

/-- R8, R86, R94: only visible entries at the progress of a running sweep and above are HELD. -/
abbrev State.HeldByTheSweep (s : State) : Prop :=
  ∀ i : Fin 48, s.dir.entries[i].held = true →
    s.dir.entries[i].visible = true ∧ ∃ p ∈ s.sweep.map SweepRun.progress, p.val ≤ i.val

/-- R1 to R3, R7, R8, R10, R22: the entries, the load slots, the queue and the shown key agree. -/
abbrev State.PagesAgree (s : State) : Prop :=
  (∀ i : Fin 48, s.dir.entries[i].Shaped) ∧
  s.SlotsMatch ∧
  s.dir.KeysUnique ∧
  s.dir.QueueExact ∧
  s.ShownAgrees ∧
  s.HeldByTheSweep

/-! ### Streams and marks (R22, R35, R36, R49, R50) -/

/-- R22, R35 to R38: what the record of a slot that is OPEN or COMPLETE keeps between two DATA. -/
abbrev LoadSlot.Sound (r : LoadSlot) : Prop :=
  r.position ≤ Config.frameBytes ∧
  r.complete = decide (r.position = Config.frameBytes) ∧
  (r.complete = true → r.text = .plain ∧ r.openMark = none) ∧
  (r.kind = .raw → r.text = .plain ∧ r.openMark = none) ∧
  r.dropped ≤ 255 ∧
  ∀ o ∈ r.openMark, o.line = r.position / Config.cellsPerLine ∧ o.cell ≤ r.position % Config.cellsPerLine

/-- R49: a mark covers at least one cell and lies within its line. -/
abbrev Mark.InLine (m : Mark) : Prop := 1 ≤ m.length ∧ m.first + m.length ≤ 40

/-- R49, R50: every entry holds at most 8 marks, no two alike, each within one line; a LOADING entry's marks are
SUPPLIED (R36); and every load slot's record is sound. -/
abbrev State.MarksSound (s : State) : Prop :=
  (∀ i : Fin 48, s.dir.entries[i].marks.length ≤ 8 ∧ s.dir.entries[i].marks.Nodup ∧
    (∀ m ∈ s.dir.entries[i].marks, m.InLine) ∧
    (s.dir.entries[i].state = .loading → ∀ m ∈ s.dir.entries[i].marks, m.owner = .supplied)) ∧
  (∀ i : Fin 2, ∀ r ∈ s.load.slots[i], r.Sound)

/-! ### Navigation (R65, R66, R68) -/

/-- R65, R66: SETTLED means that the wanted key is the shown key; a waiting navigation wants a key that the directory
does not offer it, for the reason its condition says; WAIT_MISS stands behind a locked miss record. -/
abbrev State.NavigationAgrees (s : State) : Prop :=
  (s.nav.cond = .settled → s.nav.wantedKey = s.nav.shownKey) ∧
  (s.nav.cond ≠ .settled → s.nav.wanted ≠ none) ∧
  (s.nav.cond = .waitMiss → s.nav.missLocked = true) ∧
  (s.nav.missLocked = true → s.nav.missKey ≠ none) ∧
  (∀ k ∈ s.nav.wantedKey,
    (s.nav.cond = .waitMiss → s.dir.visibleEntry k = none) ∧
    (s.nav.cond = .waitLoad → s.dir.visibleEntry k = none ∧ (s.dir.loadingEntry k).isSome = true) ∧
    (s.nav.cond = .waitSweep → (s.dir.visibleEntry k).any (fun i => s.dir.entries[i].held) = true))

/-! ### The target image (R97, R109) -/

/-- R97: every target and every mark pin is what composing its line from the inputs as they stand gives. -/
abbrev State.ImageComposed (s : State) : Prop :=
  (∀ r : Fin 128, s.comp.target[r] = s.composeRow r) ∧
  (∀ l : Fin 32, s.comp.markPins[l] = s.composeMarkPins l)

/-! ### Stores in canonical form -/

/-- The frames' store and the store of attempt counts are in canonical form, and hold nothing outside the 48 frames
and the 10,240 pins. -/
abbrev State.StoresCanonical (s : State) : Prop :=
  Memory.wf s.dir.frames = true ∧ storeWf 0 s.pins.attempts = true ∧
  (∀ c ∈ s.dir.frames, c.1 < 48 * Config.frameBytes) ∧ (∀ c ∈ s.pins.attempts, c.1 < 10240)

/-! ### The pin field and the drive (R117, R123, R137, R140, R146, R152) -/

/-- R137: a pin may be given a pulse: its row is known, its zone is not TOUCHED, and it has no fault record. -/
abbrev State.MayPulse (s : State) (r : Fin 128) (c : Fin 80) : Prop :=
  s.pins.known[r] = true ∧ s.touch.zones[zoneOfPin r c].state ≠ .touched ∧
  ∀ f ∈ s.pins.faults, ¬ (f.row = r ∧ f.col = c)

/-- R137: a strokable candidate: a pin that may be given a pulse, whose target differs from its confirmed position. -/
abbrev State.Strokable (s : State) (r : Fin 128) (c : Fin 80) : Prop :=
  s.MayPulse r c ∧ s.comp.target[r].getLsbD c.val ≠ s.pins.confirmed[r].getLsbD c.val

/-- R116: a deferred candidate: a pin of a known row whose target differs from its confirmed position, not in the fault
table, in a zone that is TOUCHED. -/
abbrev State.Deferred (s : State) (r : Fin 128) (c : Fin 80) : Prop :=
  s.pins.known[r] = true ∧ s.comp.target[r].getLsbD c.val ≠ s.pins.confirmed[r].getLsbD c.val ∧
  (∀ f ∈ s.pins.faults, ¬ (f.row = r ∧ f.col = c)) ∧ s.touch.zones[zoneOfPin r c].state = .touched

/-- The moves of a held plan: a drive plan moves pins in ascending column order (R138), each at most once, and no pin of
the fault table; a survey moves none. -/
abbrev State.PlanSound (s : State) (p : Plan) : Prop :=
  (p.moves.map Move.col).Pairwise (· < ·) ∧
  (∀ m ∈ p.moves, ∀ f ∈ s.pins.faults, ¬ (f.row = p.row ∧ f.col = m.col)) ∧
  (p.kind = .survey → p.moves = []) ∧
  p.cost = planCost p.moves

/-- R137, R142: the moves of a drive plan that waits for charge are at pins that may be given a pulse as things
stand, toward their targets. -/
abbrev State.PlanFresh (s : State) (p : Plan) : Prop :=
  p.kind = .drive →
    s.cal.sched = .driving ∧ ∀ m ∈ p.moves, s.MayPulse p.row m.col ∧ m.up = s.comp.target[p.row].getLsbD m.col.val

/-- The plan that the drive holds, waiting or in flight. -/
def DriveCondition.plan : DriveCondition → Option Plan
  | .noPlan => none
  | .waitCharge p => some p
  | .inFlight p => some p

/-- The plan that waits for charge. -/
def DriveCondition.waiting : DriveCondition → Option Plan
  | .waitCharge p => some p
  | _ => none

/-- R117, R123, R137: attempt counts are at most 2, the fault table holds at most 64 records and never the same pin
twice, and the held plan is sound and, while it waits, fresh. -/
abbrev State.PinsSound (s : State) : Prop :=
  (∀ c ∈ s.pins.attempts, c.2 ≤ 2) ∧
  s.pins.faults.length ≤ 64 ∧
  (s.pins.faults.map fun f => (f.row, f.col)).Nodup ∧
  (∀ p ∈ s.drive.cond.plan, s.PlanSound p) ∧
  (∀ p ∈ s.drive.cond.waiting, s.PlanFresh p)

/-- R140, R146, R148, R152: the level is at most 2,000 and below the cost of a plan that waits; a low supply, and it
alone, puts the scheduler into SUPPLY_LOW, with no plan and no charge; IDLE and PAUSED hold no plan; the settings
lie in their ranges. -/
abbrev State.DriveSound (s : State) : Prop :=
  s.drive.level ≤ 2000 ∧
  (∀ p ∈ s.drive.cond.waiting, s.drive.level < p.cost) ∧
  (s.drive.supply = .low ↔ s.cal.sched = .supplyLow) ∧
  (s.drive.supply = .low → s.drive.level = 0) ∧
  ((s.cal.sched = .supplyLow ∨ s.cal.sched = .idle ∨ s.cal.sched = .paused) → s.drive.cond = .noPlan) ∧
  8 ≤ s.drive.strokeTime ∧ s.drive.strokeTime ≤ 32 ∧ 20 ≤ s.drive.refillRate ∧ s.drive.refillRate ≤ 200 ∧
  1 ≤ s.drive.bankCap ∧ s.drive.bankCap ≤ 20 ∧ s.drive.markExtra ≤ 4

/-! ### The calendar and the touch zones (R153 to R159, R168 to R177) -/

/-- R153: a slot of the calendar at place `index`, its cursor within its range. -/
abbrev CalendarSlot.Sound (c : CalendarSlot) (index : Nat) (band : Fin 8) : Prop :=
  1 ≤ c.count ∧ c.count ≤ 8 ∧ (c.follow = true → index = 0) ∧
  (c.follow = false → c.first ≤ c.last ∧ c.last ≤ 31) ∧
  (c.range band).1 ≤ c.cursor.val ∧ c.cursor.val ≤ (c.range band).2

/-- R153 to R159: the calendar has 1 to 4 sound slots that reach every line, a current slot with visits left, and a
quiet set without repeats; the row of a visit has had fewer than 4 strokes. -/
abbrev State.CalendarSound (s : State) : Prop :=
  1 ≤ s.cal.slots.length ∧ s.cal.slots.length ≤ 4 ∧
  (∀ i : Fin 4, ∀ c ∈ s.cal.slots[i.val]?, c.Sound i.val s.touch.band) ∧
  (∀ l : Fin 32, ∃ c ∈ s.cal.slots, c.follow = false ∧ c.first ≤ l.val ∧ l.val ≤ c.last) ∧
  (∃ c ∈ s.cal.slots[s.cal.current]?, s.cal.visitsLeft ≤ c.count) ∧
  (s.cal.visit = none → 1 ≤ s.cal.visitsLeft) ∧
  s.cal.quiet.Nodup ∧
  (∀ v ∈ s.cal.visit, v.strokes < 4)

/-- R168, R170, R172, R177: a zone's baseline is a count of 12 bits, its run count at most 2, and its hold timer runs
only while it is TOUCHED; the settings lie in their ranges. -/
abbrev State.TouchSound (s : State) : Prop :=
  (∀ z : Fin 16, (∀ b ∈ s.touch.zones[z].baseline, b ≤ 4095) ∧ s.touch.zones[z].run ≤ 2 ∧
    (s.touch.zones[z].hold ≠ none → s.touch.zones[z].state = .touched) ∧
    (s.touch.zones[z].baseline = none → s.touch.zones[z].state = .clear)) ∧
  16 ≤ s.touch.tOn ∧ s.touch.tOn ≤ 1000 ∧ 1 ≤ s.touch.tOff ∧ s.touch.tOff < s.touch.tOn ∧
  1 ≤ s.touch.holdLimit ∧ s.touch.holdLimit ≤ 16

/-! ### The notice queue and the sweep counts (R93, R186) -/

/-- R186: no two queued notices are of the same kind and subject. -/
abbrev State.NoticesDistinct (s : State) : Prop :=
  (s.link.notices.map fun n => (n.kindCode, n.subject)).Nodup

/-- R82, R93: each HELD entry of a sweep counts in at most one of changed, skipped shown and collisions, and those not
yet visited in none. -/
abbrev State.SweepCountsSound (s : State) : Prop :=
  ∀ r ∈ s.sweep,
    s.dir.heldEntries.length + r.changed + r.skippedShown + r.collisions ≤ r.matched ∧ r.matched ≤ 48

/-- A state of a safe run: the invariants of the ten blocks together. -/
abbrev State.Safe (s : State) : Prop :=
  s.PagesAgree ∧ s.MarksSound ∧ s.NavigationAgrees ∧ s.ImageComposed ∧ s.StoresCanonical ∧ s.PinsSound ∧
  s.DriveSound ∧ s.CalendarSound ∧ s.TouchSound ∧ s.NoticesDistinct ∧ s.SweepCountsSound

end Sys2Proof.Machine
end

