-- ==== Sys2Proof/Certificates/Slice0/Obligations.lean ====
section
/-! DEFINITION. The statements for the provers: what the rows do, by family, and the invariants that every event
keeps. -/

open Sys2Proof Sys2Proof.Machine

/-! ### The block and its link -/

/-- The row at the front of the queue is what a step takes; on an empty queue the block idles (log entry 1). -/
def Obligations.StepTakesTheFrontRow : Prop :=
  (∀ (s : State) (c : Instr) (rest : List Instr),
    step { s with pending := c :: rest } = exec c { s with pending := rest }) ∧
  ∀ s : State, step { s with pending := [] } = .next { s with pending := [] }

/-- The model's own totality: every row answers a next state in every state, and leaves the waiting rows as they are. A
row whose event cannot occur in the state it meets, and a command row that meets another frame in the buffer, leave the
state as it is; that they do is the model's choice (log entries 2 and 3). -/
def Obligations.EveryRowAnswersANextState : Prop :=
  ∀ (c : Instr) (s : State), ∃ t, exec c s = .next t ∧ t.pending = s.pending

/-- R181, R183: a command that is taken or refused empties the buffer and leaves its response held, with its own tag
and code, and a payload of at most 300 bytes. -/
def Obligations.EveryCommandIsAnswered : Prop :=
  ∀ (s : State) (code : Byte) (b : CommandBody) (row : Instr),
    (commandRow code b = some row ∨ (code ∉ catalogueCodes ∧ row = .unknownCommand code b)) → s.Accepts code b →
    ∃ t status payload, exec row s = .next t ∧ t.link.buffer = none ∧
      t.link.response = some ⟨b.tag, code, status, payload⟩ ∧
      (s.MarksSound → s.PinsSound → payload.length ≤ 300)

/-- R182, R185: a command whose code is not in the catalogue, or whose length is wrong, is refused with a bare answer, and
nothing beyond the link changes. The codes and the payload lengths of the catalogue are those of its table, and no
others. -/
def Obligations.WrongFramesReachNoBlock : Prop :=
  (∀ code : Byte, code ∈ catalogueCodes ↔ ∃ l ∈ payloadLengths, l.1 = code) ∧
  (∀ (code : Byte) (n : Nat), lengthAllowed code n = true ↔ LengthListed code n) ∧
  ∀ (s : State) (code : Byte) (b : CommandBody), s.Accepts code b →
    (code ∉ catalogueCodes →
      exec (.unknownCommand code b) s = .next (s.answer code b.tag .unknownCommand [])) ∧
    (∀ row, commandRow code b = some row →
      (300 < b.declared.toNat ∨ b.declared.toNat ≠ b.payload.length ∨
        ¬ LengthListed code b.payload.length) →
      exec row s = .next (s.answer code b.tag .badLength []))

/-- R13, R24, R85 and the other check tables: a command that is refused changes nothing but the link. COMMIT is left
out, since its condition is kept (R41), and so is a DATA whose stream has failed (R39). -/
def Obligations.RefusedCommandsChangeNothing : Prop :=
  ∀ (s t : State) (code : Byte) (b : CommandBody) (row : Instr) (r : Response),
    commandRow code b = some row → s.Accepts code b → exec row s = .next t → t.link.response = some r →
    r.status ≠ .ok → r.status ≠ .accepted → code ≠ 0x12 → (code = 0x11 → r.status ≠ .streamFault) →
    t = s.answer code b.tag r.status r.payload

/-- R189: while the RESET pin is asserted a transaction shifts out zeros and changes nothing else, and no other row but
an edge of a pin or of the power changes anything. -/
def Obligations.AssertedResetPinHoldsThePart : Prop :=
  ∀ s : State, s.resetPin = true →
    (∀ c : Instr, c.isTransaction = false → c.isPinEdge = false → exec c s = .next s) ∧
    (∀ shown bytes, exec (.writeCommand shown bytes) s =
      .next { s with link := { s.link with shiftedOut := List.replicate (bytes.length + 1) 0 } }) ∧
    ∀ (n : Nat) (c : Instr), (c = .readResponse n ∨ c = .readNotice n ∨ ∃ code, c = .statusOnlyTransaction code n) →
      exec c s = .next { s with link := { s.link with shiftedOut := List.replicate (n + 1) 0 } }

/-- R180, R181, R183, R184, R186, R191: what the transactions shift out and move. A WRITE COMMAND of four header bytes or
more whose status byte showed no BUSY fills the buffer; a shorter one, or one whose status byte showed BUSY, is ignored.
The held response or the head notice is read and removed, in the layout of its frame; without one, a frame of
NO_RESPONSE or of kind NONE is read. A transaction of the status byte alone reads that byte and changes nothing. The bits
of that byte, and ATTN, follow the response, the queue and the buffer. The model's own: the row of a WRITE COMMAND carries
the status byte of its fall, and one that the link cannot have shown changes nothing (log entries 2 and 19); the status
byte is taken before the removal (log entry 24); an offset of 2^32 or more is sent as its low 32 bits (log entry 26); and a
status-only row that carries a code of a transaction of its own with further bytes is taken as the row it is (log entry
19). -/
def Obligations.TransactionsCarryTheirFrames : Prop :=
  (∀ l : Link,
    l.statusByte.getLsbD 0 = l.response.isSome ∧ l.statusByte.getLsbD 1 = decide (l.notices ≠ []) ∧
    l.statusByte.getLsbD 2 = l.buffer.isSome ∧ (∀ k, 3 ≤ k → l.statusByte.getLsbD k = false) ∧
    l.attnLow = decide (l.notices ≠ []) ∧ l.MayHaveShown l.statusByte) ∧
  (∀ (s : State) (shown : Byte), s.resetPin = false →
    (∀ bytes, ¬ s.link.MayHaveShown shown → exec (.writeCommand shown bytes) s = .next s) ∧
    (s.link.MayHaveShown shown →
      (∀ (code tag l0 l1 : Byte) (payload : List Byte), shown.getLsbD 2 = false →
        exec (.writeCommand shown (code :: tag :: l0 :: l1 :: payload)) s = .next { s with link := { s.link with
          buffer := some ⟨code, ⟨tag, l1 ++ l0, payload⟩⟩
          shiftedOut := shown :: List.replicate (payload.length + 4) 0 } }) ∧
      ∀ bytes : List Byte, (shown.getLsbD 2 = true ∨ bytes.length < 4) → exec (.writeCommand shown bytes) s =
        .next { s with link := { s.link with shiftedOut := shown :: List.replicate bytes.length 0 } })) ∧
  ∀ (s : State) (n : Nat), s.resetPin = false →
    (∀ c : Instr, (c = .readResponse 0 ∨ c = .readNotice 0 ∨ ∃ code, c = .statusOnlyTransaction code 0) →
      exec c s = .next { s with link := { s.link with shiftedOut := [s.link.statusByte] } }) ∧
    (1 ≤ n → ∃ out, exec (.readResponse n) s =
        .next { s with link := { s.link with response := none, shiftedOut := out } } ∧
      (∀ r ∈ s.link.response, ∀ c, (r.status, c) ∈ [(Status.ok, 0x00#8), (.accepted, 0x01#8),
          (.unknownCommand, 0x02#8), (.badLength, 0x03#8), (.badArgument, 0x04#8), (.notFound, 0x05#8),
          (.exists_, 0x06#8), (.stale, 0x07#8), (.held, 0x08#8), (.shownEntry, 0x09#8), (.storeFull, 0x0A#8),
          (.keyBusy, 0x0B#8), (.noSlot, 0x0C#8), (.slotState, 0x0D#8), (.sweepBusy, 0x0E#8), (.marksFull, 0x0F#8),
          (.badCalendar, 0x10#8), (.streamFault, 0x11#8), (.noResponse, 0x12#8)] →
        s.link.ShiftsOut ([r.tag, r.code, c, BitVec.ofNat 8 r.payload.length,
          BitVec.ofNat 8 (r.payload.length / 256)] ++ r.payload) n out) ∧
      (s.link.response = none → s.link.ShiftsOut [0, 0, 0x12, 0, 0] n out)) ∧
    (1 ≤ n → ∃ out, exec (.readNotice n) s =
        .next { s with link := { s.link with notices := s.link.notices.drop 1, shiftedOut := out } } ∧
      (∀ m ∈ s.link.notices.head?,
        (∀ k : Key, m = .miss k → s.link.ShiftsOut
          [1, 0, 3, k.doc.setWidth 8, k.page.setWidth 8, (k.page >>> 8).setWidth 8] n out) ∧
        (∀ (i : Fin 2) (e : StreamError) (o : Nat), m = .streamFault i e o → s.link.ShiftsOut
          [2, BitVec.ofNat 8 i.val, 5, if e = .badEscape then 1 else if e = .badOperand then 2 else 3,
            BitVec.ofNat 8 o, BitVec.ofNat 8 (o / 256), BitVec.ofNat 8 (o / 65536), BitVec.ofNat 8 (o / 16777216)]
          n out) ∧
        (∀ (a b c d : Nat) (x : Bool), m = .sweepDone a b c d x → s.link.ShiftsOut
          [3, 0, 5, BitVec.ofNat 8 a, BitVec.ofNat 8 b, BitVec.ofNat 8 c, BitVec.ofNat 8 d, if x then 1 else 0]
          n out) ∧
        (∀ (k : Key) (c : ShownCause), m = .shown k c → s.link.ShiftsOut
          [4, 0, 4, k.doc.setWidth 8, k.page.setWidth 8, (k.page >>> 8).setWidth 8,
            if c = .nav then 0 else if c = .command then 1 else 2] n out) ∧
        (∀ a b c d e : Nat, m = .key a b c d e → s.link.ShiftsOut
          [5, 0, 5, BitVec.ofNat 8 a, BitVec.ofNat 8 b, BitVec.ofNat 8 c, BitVec.ofNat 8 d, BitVec.ofNat 8 e] n out) ∧
        (∀ (zones : Vector ZoneState 16) (b : Fin 8), m = .touch zones b → s.link.ShiftsOut
          ([6, 0, 17] ++ (List.finRange 16).map (fun z => if zones[z] = .clear then 0 else
            if zones[z] = .touched then 1 else 2) ++ [BitVec.ofNat 8 b.val]) n out) ∧
        (∀ (a : Nat) (x : Bool), m = .pinFault a x → s.link.ShiftsOut
          [7, 0, 2, BitVec.ofNat 8 a, if x then 1 else 0] n out) ∧
        (∀ (x : Scheduler) (y : Supply), m = .drive x y → s.link.ShiftsOut
          [8, 0, 2, if x = .surveying then 0 else if x = .driving then 1 else if x = .idle then 2 else
            if x = .paused then 3 else 4, if y = .ok then 0 else 1] n out) ∧
        (∀ d k : Nat, m = .settle d k → s.link.ShiftsOut
          [9, 0, 4, BitVec.ofNat 8 d, BitVec.ofNat 8 (d / 256), BitVec.ofNat 8 k, BitVec.ofNat 8 (k / 256)] n out)) ∧
      (s.link.notices = [] → s.link.ShiftsOut [0, 0, 0] n out)) ∧
    ∀ code, ∃ out, exec (.statusOnlyTransaction code n) s =
        .next { s with link := { s.link with shiftedOut := out } } ∧ s.link.ShiftsOut [] n out

/-- R186, R187: a posting of a masked kind is dropped; a posting of a kind and subject that is queued updates that
notice in its place, adding the counts of KEY and PIN_FAULT and replacing the others; any other is appended. -/
def Obligations.PostingsMergeOrAppend : Prop :=
  ∀ (s : State) (n : Notice),
    (s.link.mask.getLsbD (n.kindCode - 1) = true → s.post n = s) ∧
    (s.link.mask.getLsbD (n.kindCode - 1) = false →
      (∀ before old after, s.NoticesDistinct → s.link.notices = before ++ old :: after →
        old.kindCode = n.kindCode → old.subject = n.subject →
        ∃ new, s.post n = { s with link := { s.link with notices := before ++ new :: after } } ∧
          (n.kindCode ≠ 5 → n.kindCode ≠ 7 → new = n) ∧
          (∀ p x m k c p' x' m' k' c', old = .key p x m k c → n = .key p' x' m' k' c' →
            new = .key (min 15 (p + p')) (min 15 (x + x')) (min 15 (m + m')) (min 15 (k + k'))
              (min 15 (c + c'))) ∧
          (∀ a f a' f', old = .pinFault a f → n = .pinFault a' f' →
            new = .pinFault (min 255 (a + a')) (f || f'))) ∧
      ((∀ o ∈ s.link.notices, ¬ (o.kindCode = n.kindCode ∧ o.subject = n.subject)) →
        s.post n = { s with link := { s.link with notices := s.link.notices ++ [n] } }))

/-! ### The directory: lookups -/

/-- R3, R7: a lookup answers exactly one of its four results, by the entries that hold the key; and the shown entry is the
one whose state is SHOWN. -/
def Obligations.LookupNamesTheEntry : Prop :=
  ∀ (s : State) (k : Key), s.PagesAgree →
    (∀ i : Fin 48, s.dir.shownEntry = some i ↔ s.dir.entries[i].state = .shown) ∧
    (∀ i : Fin 48, s.dir.visibleEntry k = some i ↔
      (s.dir.entries[i].state = .ready ∨ s.dir.entries[i].state = .shown) ∧ s.dir.entries[i].key = some k) ∧
    (∀ i : Fin 48, s.dir.lookup k = .visible i ↔
      s.dir.visibleEntry k = some i ∧ s.dir.entries[i].held = false) ∧
    (∀ i : Fin 48, s.dir.lookup k = .held i ↔
      s.dir.visibleEntry k = some i ∧ s.dir.entries[i].held = true) ∧
    (∀ j : Fin 2, s.dir.lookup k = .loading (some j) ↔
      s.dir.visibleEntry k = none ∧ ∃ r, s.load.slots[j] = some r ∧ r.key = k) ∧
    s.dir.lookup k ≠ .loading none ∧
    (s.dir.lookup k = .absent ↔
      ∀ i : Fin 48, s.dir.entries[i].state ≠ .free → s.dir.entries[i].key ≠ some k)

/-! ### Loading pages -/

/-- R24, R25, R12: OPEN LOAD with no load of its key and an IDLE slot takes the lowest IDLE slot and the lowest FREE
entry; with no entry FREE it reclaims the first entry of the queue that is not HELD, and reports its key. -/
def Obligations.OpenLoadTakesAnEntry : Prop :=
  ∀ (s : State) (b : CommandBody) (tag x y : Byte) (a : OpenArgs) (slot : Fin 2) (i : Fin 48),
    b = frameOf tag (a.bytes x y) → s.Accepts 0x10 b → Memory.wf s.dir.frames = true →
    (∀ j : Fin 2, ∀ r ∈ s.load.slots[j], r.key ≠ a.key) →
    LeastIndex (fun j : Fin 2 => s.load.slots[j] = none) slot →
    (LeastIndex (fun j : Fin 48 => s.dir.entries[j].state = .free) i →
      ∃ t u v, exec (.openLoad b) s = .next t ∧ s.Opened t a slot i ∧
        t.link = s.link.answer 0x10 tag .ok [put8 slot.val, put8 i.val, 0xFF, u, v]) ∧
    (∀ (k : Key) (before after : List (Fin 48)), (∀ j : Fin 48, s.dir.entries[j].state ≠ .free) →
      s.dir.queue = before ++ i :: after → (∀ j ∈ before, s.dir.entries[j].held = true) →
      s.dir.entries[i].held = false → s.dir.entries[i].key = some k →
      ∃ t, exec (.openLoad b) s = .next t ∧ s.Opened t a slot i ∧
        t.link = s.link.answer 0x10 tag .ok ([put8 slot.val, put8 i.val] ++ putKey k))

/-- R24: the four refusals of OPEN LOAD, in their order. That the KEY_BUSY response has an empty payload is the model's (log
entry 25). -/
def Obligations.OpenLoadRefusals : Prop :=
  ∀ (s : State) (b : CommandBody) (tag : Byte), s.Accepts 0x10 b →
    (∀ d p0 p1 kind group pinned c r0 r1 : Byte, b = frameOf tag [d, p0, p1, kind, group, pinned, c, r0, r1] →
      (16 ≤ d.toNat ∨ 2 ≤ kind.toNat ∨ 16 ≤ group.toNat ∨ 2 ≤ pinned.toNat ∨ (c ≠ 1 ∧ c ≠ 2 ∧ c ≠ 3)) →
      exec (.openLoad b) s = .next (s.answer 0x10 tag .badArgument [])) ∧
    ∀ (x y : Byte) (a : OpenArgs), b = frameOf tag (a.bytes x y) →
      ((∃ j : Fin 2, ∃ r ∈ s.load.slots[j], r.key = a.key) →
        exec (.openLoad b) s = .next (s.answer 0x10 tag .keyBusy [])) ∧
      ((∀ j : Fin 2, ∃ r ∈ s.load.slots[j], r.key ≠ a.key) →
        exec (.openLoad b) s = .next (s.answer 0x10 tag .noSlot [])) ∧
      ((∀ j : Fin 2, ∀ r ∈ s.load.slots[j], r.key ≠ a.key) → (∃ j : Fin 2, s.load.slots[j] = none) →
        (∀ j : Fin 48, s.dir.entries[j].state ≠ .free) → (∀ j ∈ s.dir.queue, s.dir.entries[j].held = true) →
        exec (.openLoad b) s = .next (s.answer 0x10 tag .storeFull []))

/-- R27, R28, R29, R31 to R33, R36 to R38: what a DATA on an OPEN slot does to its stream, with no element begun. Cell
bytes, or the bytes of a RAW stream, are written from the write position on, up to the end of the page; the rest is
discarded. The escape value twice writes it as a cell. REPEAT writes its pattern and SKIP passes over, both clamped at
the end of the page; LINE_END and PAGE_END blank the rest of the line and the page. In each case the slot is COMPLETE
exactly when the stream has reached frame byte 1280, and a mark that is open is closed at the end of its line when the
line is left, to be appended, passed over or counted as dropped. -/
def Obligations.DataFillsTheFrame : Prop :=
  ∀ (s : State) (b : CommandBody) (tag : Byte) (i : Fin 2) (r : LoadSlot) (bytes : List Byte) (marks : List Mark),
    b = frameOf tag (put8 i.val :: bytes) → s.Accepts 0x11 b → Memory.wf s.dir.frames = true →
    s.load.slots[i] = some r → r.complete = false → r.position < 1280 → r.text = .plain →
    (r.kind = .raw → r.openMark = none) → marks = s.dir.entries[r.entry].marks →
    (∀ n, (r.kind = .raw ∨ s.load.escape ∉ bytes) → 1 ≤ bytes.length → bytes.length ≤ 256 →
      n = min bytes.length (1280 - r.position) →
      ∃ t, exec (.data b) s = .next t ∧
        s.Streamed t tag i r n (bytes.length - n) (r.position + n)
          (fun o => if r.position ≤ o then bytes[o - r.position]? else none)
          (r.leaving marks (r.position + n))) ∧
    (r.kind = .text → bytes = [s.load.escape, s.load.escape] →
      ∃ t, exec (.data b) s = .next t ∧ s.Streamed t tag i r 2 0 (r.position + 1)
        (fun o => if o = r.position then some s.load.escape else none) (r.leaving marks (r.position + 1))) ∧
    (r.kind = .text → ∀ code : Byte, code ≠ s.load.escape →
      (∀ n p : Byte, bytes = [s.load.escape, code, n, p] →
        actionOf s.load.codes.toList code = some .repeatCell →
        ∃ t, exec (.data b) s = .next t ∧ s.Streamed t tag i r 4 0 (min 1280 (r.position + n.toNat))
          (fun o => if r.position ≤ o ∧ o < r.position + n.toNat then some p else none)
          (r.leaving marks (min 1280 (r.position + n.toNat)))) ∧
      (∀ n : Byte, bytes = [s.load.escape, code, n] → actionOf s.load.codes.toList code = some .skip →
        ∃ t, exec (.data b) s = .next t ∧ s.Streamed t tag i r 3 0 (min 1280 (r.position + n.toNat))
          (fun _ => none) (r.leaving marks (min 1280 (r.position + n.toNat)))) ∧
      (bytes = [s.load.escape, code] → actionOf s.load.codes.toList code = some .lineEnd →
        ∃ t, exec (.data b) s = .next t ∧ s.Streamed t tag i r 2 0 ((r.position / 40 + 1) * 40)
          (fun o => if r.position ≤ o ∧ o < (r.position / 40 + 1) * 40 then some 0 else none)
          (r.leaving marks ((r.position / 40 + 1) * 40))) ∧
      (∀ rest, bytes = s.load.escape :: code :: rest → rest.length ≤ 254 →
        actionOf s.load.codes.toList code = some .pageEnd →
        ∃ t, exec (.data b) s = .next t ∧ s.Streamed t tag i r 2 rest.length 1280
          (fun o => if r.position ≤ o then some 0 else none) (r.leaving marks 1280)))

/-- R29, R35, R36: an inline mark. MARK_OPEN opens a mark at the write position, closing one that is open; MARK_CLOSE
closes an open mark at the write position, and does nothing without one. MARK_OPEN, cells that stay on the line and
MARK_CLOSE offer to the entry's list the SUPPLIED mark over those cells; with cells that reach the end of the line the
mark is closed there. A mark of no cell and one that the list holds already are not recorded; on a full list the mark is
counted as dropped. -/
def Obligations.DataLaysAnInlineMark : Prop :=
  ∀ (s : State) (b : CommandBody) (tag : Byte) (i : Fin 2) (r : LoadSlot) (opening closing : Byte) (c : MarkClass)
    (cells bytes : List Byte) (line : Fin 32) (marks : List Mark),
    b = frameOf tag (put8 i.val :: bytes) →
    s.Accepts 0x11 b → Memory.wf s.dir.frames = true → s.load.slots[i] = some r → r.complete = false →
    r.kind = .text → r.text = .plain → r.position / 40 = line.val → marks = s.dir.entries[r.entry].marks →
    opening ≠ s.load.escape → closing ≠ s.load.escape → s.load.escape ∉ cells →
    actionOf s.load.codes.toList opening = some .markOpen →
    actionOf s.load.codes.toList closing = some .markClose →
    (bytes = [s.load.escape, opening, put8 c.code] →
      ∃ t, exec (.data b) s = .next t ∧ s.Streamed t tag i r 3 0 r.position (fun _ => none)
        (some ⟨c, line.val, r.position % 40⟩, r.closing marks (r.position % 40))) ∧
    (bytes = [s.load.escape, closing] →
      ∃ t, exec (.data b) s = .next t ∧ s.Streamed t tag i r 2 0 r.position (fun _ => none)
        (none, r.closing marks (r.position % 40))) ∧
    (bytes = [s.load.escape, opening, put8 c.code] ++ cells ++ [s.load.escape, closing] → r.openMark = none →
      r.position % 40 + cells.length < 40 →
      ∃ t, exec (.data b) s = .next t ∧
        s.Streamed t tag i r (cells.length + 5) 0 (r.position + cells.length)
          (fun o => if r.position ≤ o then cells[o - r.position]? else none)
          (none, offered marks r.dropped ⟨c, .supplied, line, r.position % 40, cells.length⟩)) ∧
    (bytes = [s.load.escape, opening, put8 c.code] ++ cells → r.openMark = none → cells.length ≤ 250 →
      40 ≤ r.position % 40 + cells.length → r.position + cells.length ≤ 1280 →
      ∃ t, exec (.data b) s = .next t ∧
        s.Streamed t tag i r (cells.length + 3) 0 (r.position + cells.length)
          (fun o => if r.position ≤ o then cells[o - r.position]? else none)
          (none, offered marks r.dropped ⟨c, .supplied, line, r.position % 40, 40 - r.position % 40⟩))

/-- R22, R27, R34, R37: the bytes of a stream may be divided over its DATA anywhere, an element in the middle too. A DATA
of two runs of bytes leaves what a DATA of the first and then one of the second leave, but for the responses: of bytes
consumed it reports the sum. When the first run ends the stream with an error it answers as the first alone, and when
the first run completes the slot the second is discarded. -/
def Obligations.DataIsDecodedByteByByte : Prop :=
  ∀ (s t : State) (tag : Byte) (i : Fin 2) (r : LoadSlot) (xs ys : List Byte) (status : Status)
    (payload : List Byte), xs ≠ [] → ys ≠ [] → xs.length + ys.length ≤ 256 →
    s.load.slots[i] = some r → r.complete = false →
    s.resetPin = false → s.link.buffer = none →
    exec (.data (frameOf tag (put8 i.val :: xs))) s = .next t →
    t.link.response = some ⟨tag, 0x11, status, payload⟩ →
    (status ≠ .ok → exec (.data (frameOf tag (put8 i.val :: (xs ++ ys)))) s = .next t) ∧
    (∀ r', t.load.slots[i] = some r' → status = .ok →
      (r'.complete = true → ∃ consumed discarded rest, payload = putNat16 consumed ++ putNat16 discarded ++ rest ∧
        consumed + discarded = xs.length ∧
        exec (.data (frameOf tag (put8 i.val :: (xs ++ ys)))) s =
          .next { t with link := { t.link with response := some ⟨tag, 0x11, .ok,
            putNat16 consumed ++ putNat16 (discarded + ys.length) ++ rest⟩ } }) ∧
      (r'.complete = false → ∃ (u : State) (second : Status) (p whole : List Byte),
        exec (.data (frameOf tag (put8 i.val :: ys))) t = .next u ∧
        u.link.response = some ⟨tag, 0x11, second, p⟩ ∧
        (second = .ok → ∃ consumed rest, p = putNat16 consumed ++ rest ∧
          whole = putNat16 (xs.length + consumed) ++ rest) ∧
        (second ≠ .ok → whole = p) ∧
        exec (.data (frameOf tag (put8 i.val :: (xs ++ ys)))) s = .next { u with link := { u.link with
          response := some ⟨tag, 0x11, second, whole⟩, served := t.link.served } }))

/-- R29, R34, R39, R75: a code after the escape value that no consulted entry holds, and a MARK_OPEN operand above 3, are
fatal: the slot is IDLE and its entry FREE, STREAM_FAULT is posted and answered with the offset of the byte, and then
navigation is told. Of an offset of 2^32 or more the answer holds the low 32 bits, which is the model's (log entry
26). -/
def Obligations.BrokenStreamEndsItsLoad : Prop :=
  ∀ (s : State) (b : CommandBody) (tag : Byte) (i : Fin 2) (r : LoadSlot) (byte : Byte) (rest : List Byte)
    (e : StreamError),
    b = frameOf tag (put8 i.val :: byte :: rest) → rest.length ≤ 255 → s.Accepts 0x11 b →
    s.load.slots[i] = some r → r.complete = false → r.kind = .text →
    ((r.text = .escape ∧ byte ≠ s.load.escape ∧ (∀ c ∈ consulted s.load.codes.toList, c.code ≠ some byte) ∧
        e = .badEscape) ∨
      (r.text = .markClass ∧ 4 ≤ byte.toNat ∧ e = .badOperand)) →
    ∃ t, ((s.unloaded i r).post (.streamFault i e r.offset)).TellsKey r.key t ∧
      exec (.data b) s = .next (t.answer 0x11 tag .streamFault
        ((if e = .badEscape then 1 else 2) :: putNat32 r.offset))

/-- R39, R40, R46, R75: CANCEL LOAD and the expiry of the idle timer end a load: the slot is IDLE and its entry FREE; the
timeout posts STREAM_FAULT, the cancel does not; and then navigation is told. A navigation that waits on the load's key,
with no entry of it visible, passes to WAIT_MISS and captures the key if the miss record is unlocked, MISS coming after
STREAM_FAULT. That the expiry of an IDLE slot's timer, which does not run, changes nothing is the model's (log entry
2); so are the low 32 bits of an offset of 2^32 or more (log entry 26). -/
def Obligations.LoadsEndWithoutCommit : Prop :=
  ∀ (s : State) (b : CommandBody) (tag : Byte) (i : Fin 2), b = frameOf tag [put8 i.val] →
    (s.load.slots[i] = none → exec (.timeout i) s = .next s) ∧
    ∀ r : LoadSlot, s.load.slots[i] = some r →
    (s.Accepts 0x13 b → ∃ t, (s.unloaded i r).TellsKey r.key t ∧
      exec (.cancelLoad b) s = .next (t.answer 0x13 tag .ok (put8 r.entry.val :: putNat32 r.offset))) ∧
    (s.resetPin = false → ∃ t, ((s.unloaded i r).post (.streamFault i .timeout r.offset)).TellsKey r.key t ∧
      exec (.timeout i) s = .next t) ∧
    (s.PagesAgree → s.nav.cond = .waitLoad → s.nav.wantedKey = some r.key → s.dir.visibleEntry r.key = none →
      ∀ t u : State, t = s.unloaded i r → u = t.post (.streamFault i .timeout r.offset) →
      (s.Accepts 0x13 b → exec (.cancelLoad b) s =
        .next ((if s.nav.missLocked then { t with nav := { s.nav with cond := .waitMiss } }
          else { t with nav := { s.nav with
            cond := .waitMiss, missKey := some r.key, missLocked := true } }.post (.miss r.key)).answer
          0x13 tag .ok (put8 r.entry.val :: putNat32 r.offset))) ∧
      (s.resetPin = false → exec (.timeout i) s =
        .next (if s.nav.missLocked then { u with nav := { s.nav with cond := .waitMiss } }
          else { u with nav := { s.nav with
            cond := .waitMiss, missKey := some r.key, missLocked := true } }.post (.miss r.key))))

/-- R41 to R43, R45, R74: a COMMIT of a key with no visible entry, under a condition other than IF_REVISION, ends the
stream of a TEXT load, a mark that is open being closed at the write position, and makes the entry READY with revision 1,
at the tail of the reclaim queue if it is unpinned. Then navigation is told; when it is SETTLED it only unlocks a miss
record that is locked on the key. -/
def Obligations.CommitPlacesANewPage : Prop :=
  ∀ (s : State) (b : CommandBody) (tag x y : Byte) (i : Fin 2) (r : LoadSlot) (given : Option CommitCondition)
    (ended : List Mark × Nat),
    b = frameOf tag (put8 i.val :: ((given.map fun c => c.bytes x y).getD [])) → s.Accepts 0x12 b →
    s.load.slots[i] = some r → s.dir.visibleEntry r.key = none →
    (∀ v, given.getD r.condition ≠ .ifRevision v) → s.dir.entries[r.entry].state = .loading →
    r.entry ∉ s.dir.queue →
    ended = (if r.complete = true ∨ r.kind = Kind.raw then (s.dir.entries[r.entry].marks, r.dropped)
      else r.closing s.dir.entries[r.entry].marks (r.position % 40)) →
    ∃ t, ({ s with
      load := { s.load with slots := s.load.slots.set i none }
      dir := { s.dir with
        entries := s.dir.entries.set r.entry
          { s.dir.entries[r.entry] with state := .ready, revision := 1, slot := none, marks := ended.1 }
        queue := if s.dir.entries[r.entry].pinned then s.dir.queue else s.dir.queue ++ [r.entry] } } : State
      ).TellsCommitted r.key t ∧
      exec (.commit b) s = .next (t.answer 0x12 tag .ok
        (put8 r.entry.val :: put16 1 ++ [0, 0xFF, 0, put8 (min 255 ended.2),
          putBool (decide (r.complete = false ∧ r.kind = Kind.text ∧ r.text ≠ TextState.plain))]))

/-- R42, R44, R45, R74: a COMMIT that replaces a visible entry V which is not HELD, its condition holding: the stream of a
TEXT load ends as for a new page, V's patron marks are carried while there is room, the revision is V's plus 1, the state
is V's, and V becomes FREE. When V was SHOWN the whole page is composed again; when it was READY nothing is composed. Then
navigation is told. The model's own: all 32 lines are composed as one whole (log entry 9), and the Compositor does its work
before navigation is told (log entry 22). -/
def Obligations.CommitReplacesThePage : Prop :=
  ∀ (s : State) (b : CommandBody) (tag x y : Byte) (i : Fin 2) (r : LoadSlot) (given : Option CommitCondition)
    (v : Fin 48) (ended : List Mark × Nat) (patron carried : List Mark),
    b = frameOf tag (put8 i.val :: ((given.map fun c => c.bytes x y).getD [])) → s.Accepts 0x12 b →
    s.load.slots[i] = some r → s.dir.visibleEntry r.key = some v → s.dir.entries[v].held = false →
    (given.getD r.condition = .any ∨ given.getD r.condition = .ifRevision s.dir.entries[v].revision) →
    s.dir.entries[r.entry].state = .loading → r.entry ∉ s.dir.queue →
    ended = (if r.complete = true ∨ r.kind = Kind.raw then (s.dir.entries[r.entry].marks, r.dropped)
      else r.closing s.dir.entries[r.entry].marks (r.position % 40)) →
    patron = s.dir.entries[v].marks.filter (fun m => m.owner == .patron) →
    carried = patron.take (8 - ended.1.length) →
    ∃ t u w : State,
      t = { s with
        load := { s.load with slots := s.load.slots.set i none }
        dir := { s.dir with
          entries := (s.dir.entries.set r.entry { s.dir.entries[r.entry] with
            state := s.dir.entries[v].state
            revision := s.dir.entries[v].revision + 1
            slot := none
            marks := ended.1 ++ carried }).set v Entry.free
          queue := (if s.dir.entries[v].state = EntryState.ready ∧ s.dir.entries[r.entry].pinned = false then
              s.dir.queue ++ [r.entry] else s.dir.queue).filter (· ≠ v) } } ∧
      PinPath t u ∧ (s.dir.entries[v].state = .ready → u = t) ∧
      (s.dir.entries[v].state = .shown → u = t.recompose (List.finRange 32) ∧
        ∀ row : Fin 128, u.comp.target[row] = u.composeRow row) ∧
      u.TellsCommitted r.key w ∧
      exec (.commit b) s = .next (w.answer 0x12 tag .ok
        (put8 r.entry.val :: put16 (s.dir.entries[v].revision + 1) ++ [1, put8 v.val, put8 carried.length,
          put8 (min 255 (ended.2 + (patron.length - carried.length))),
          putBool (decide (r.complete = false ∧ r.kind = Kind.text ∧ r.text ≠ TextState.plain))]))

/-- R67, R74: a COMMIT of the key that navigation waits for shows the new page in the same event: the entry is SHOWN,
the page that was SHOWN becomes READY, navigation is SETTLED, and SHOWN is posted with cause COMMIT. -/
def Obligations.CommitShowsTheWantedPage : Prop :=
  ∀ (s : State) (b : CommandBody) (tag : Byte) (i : Fin 2) (r : LoadSlot),
    b = frameOf tag [put8 i.val] → s.Accepts 0x12 b → s.PagesAgree →
    s.load.slots[i] = some r → r.openMark = none → s.dir.visibleEntry r.key = none →
    (∀ v, r.condition ≠ .ifRevision v) → s.nav.cond ≠ .settled → s.nav.wantedKey = some r.key →
    ∃ (t u : State) (payload : List Byte),
      t.dir = ({ s.dir with
        entries := s.dir.entries.set r.entry
          { s.dir.entries[r.entry] with state := .ready, revision := 1, slot := none } } : Directory).showEntry r.entry ∧
      t = { s with
        load := { s.load with slots := s.load.slots.set i none }
        dir := t.dir
        nav := { s.nav with
          missLocked := s.nav.missLocked && decide (s.nav.missKey ≠ some r.key)
          shownKey := some r.key
          cond := .settled } } ∧
      PinPath (t.post (.shown r.key .commit)) u ∧
      exec (.commit b) s = .next (u.answer 0x12 tag .ok payload)

/-- R41: the refusals of COMMIT. A condition that is given replaces the slot's, whether or not the commit is taken. -/
def Obligations.CommitRefusals : Prop :=
  ∀ (s : State) (b : CommandBody) (tag x y : Byte) (i : Fin 2) (given : Option CommitCondition),
    b = frameOf tag (put8 i.val :: ((given.map fun c => c.bytes x y).getD [])) → s.Accepts 0x12 b →
    (s.load.slots[i] = none → exec (.commit b) s = .next (s.answer 0x12 tag .slotState [])) ∧
    ∀ r, s.load.slots[i] = some r →
      ∀ (c : CommitCondition) (t : State), c = given.getD r.condition →
        t = { s with load := { s.load with slots := s.load.slots.set i (some { r with condition := c }) } } →
        (∀ w, s.dir.visibleEntry r.key = none → c = .ifRevision w →
          exec (.commit b) s = .next (t.answer 0x12 tag .notFound [])) ∧
        ∀ v, s.dir.visibleEntry r.key = some v →
          (c = .newOnly → exec (.commit b) s =
            .next (t.answer 0x12 tag .exists_ (put16 s.dir.entries[v].revision))) ∧
          (c ≠ .newOnly → s.dir.entries[v].held = true → exec (.commit b) s =
            .next (t.answer 0x12 tag .held (put16 s.dir.entries[v].revision))) ∧
          (∀ w, c = .ifRevision w → s.dir.entries[v].held = false → s.dir.entries[v].revision ≠ w →
            exec (.commit b) s = .next (t.answer 0x12 tag .stale (put16 s.dir.entries[v].revision)))

/-! ### Settings -/

/-- R30, R47, R71, R148, R154, R177, R187: the commands that set what the part is told, each taken whole. The entries of a
control-code table that are consulted are those up to and with the first whose end flag is set, or all 8, and the action of
a code is that of the consulted entry that holds it. A taken SET DRIVE
forms a waiting drive plan again under the new settings, and does no more; SET CALENDAR puts every cursor at its start and
discards the line visit in progress; SET TOUCH clears every run count. The model's own: a control-code entry after the end of
the table that names no action is kept as one with none (log entry 16), and the page bytes of an absent key in the answer of
SET NAVIGATION are free (log entry 7). -/
def Obligations.SettingsAreTaken : Prop :=
  (∀ codes : Vector ControlEntry 8,
    (∀ i : Fin 8, LeastIndex (fun j : Fin 8 => codes[j].last = true) i →
      consulted codes.toList = codes.toList.take (i.val + 1)) ∧
    ((∀ j : Fin 8, codes[j].last = false) → consulted codes.toList = codes.toList) ∧
    (((consulted codes.toList).filterMap ControlEntry.code).Nodup → ∀ (code : Byte) (a : ControlAction),
      actionOf codes.toList code = some a ↔ ∃ e ∈ consulted codes.toList, e.code = some code ∧ e.action = some a)) ∧
  ∀ (s : State) (b : CommandBody) (tag : Byte),
    (∀ (escape : Byte) (table : List Byte) (codes : Vector ControlEntry 8), SpellsCodes table codes →
      b = frameOf tag (escape :: table) → s.Accepts 0x14 b →
      (∀ c ∈ consulted codes.toList, c.action ≠ none ∧ c.code ≠ some escape) →
      ((consulted codes.toList).filterMap ControlEntry.code).Nodup → (∀ j : Fin 2, s.load.slots[j] = none) →
      exec (.setControlCodes b) s =
        .next ({ s with load := { s.load with escape := escape, codes := codes } }.answer 0x14 tag .ok [])) ∧
    (∀ lock : Bool, b = frameOf tag [putBool lock] → s.Accepts 0x3A b →
      exec (.setNavigation b) s = .next ({ s with nav := { s.nav with lock := lock } }.answer 0x3A tag .ok
        (putNavigation { s with nav := { s.nav with lock := lock } }))) ∧
    (∀ tOn tOff limit : Nat, b = frameOf tag (putNat16 tOn ++ putNat16 tOff ++ [put8 limit]) → s.Accepts 0x60 b →
      16 ≤ tOn → tOn ≤ 1000 → 1 ≤ tOff → tOff < tOn → 1 ≤ limit → limit ≤ 16 →
      exec (.setTouch b) s = .next ({ s with touch := { s.touch with
        zones := s.touch.zones.map (fun z : Zone => { z with run := 0 })
        tOn := tOn
        tOff := tOff
        holdLimit := limit } }.answer 0x60 tag .ok [])) ∧
    (∀ mask : BitVec 9, b = frameOf tag (put16 (mask.setWidth 16)) → s.Accepts 0x70 b →
      exec (.setNoticeMask b) s = .next ({ s with link := { s.link with mask := mask } }.answer 0x70 tag .ok [])) ∧
    (∀ strokeTime rate cap extra : Nat,
      b = frameOf tag [put8 strokeTime, put8 rate, put8 cap, put8 extra] → s.Accepts 0x50 b →
      8 ≤ strokeTime → strokeTime ≤ 32 → 20 ≤ rate → rate ≤ 200 → 1 ≤ cap → cap ≤ 20 → extra ≤ 4 →
      ∃ t u : State, t = { s with drive := { s.drive with
          strokeTime := strokeTime, refillRate := rate, bankCap := cap, markExtra := extra } } ∧
        u = t.reform (fun _ => true) ∧ PinPath t u ∧ ((∀ p ∈ s.drive.cond.waiting, p.kind ≠ .drive) → u = t) ∧
        exec (.setDrive b) s = .next (u.answer 0x50 tag .ok [])) ∧
    (∀ (first : CalendarSlot) (others : List CalendarSlot) (junk : List Byte),
      b = frameOf tag (put8 (others.length + 1) :: (first :: others).flatMap (fun c =>
        [put8 c.first, put8 c.last, put8 c.count, putBool c.follow]) ++ junk) → s.Accepts 0x48 b →
      others.length + 1 ≤ 4 → 4 * (others.length + 1) + junk.length = 16 →
      (∀ c ∈ others, c.follow = false) →
      (∀ c ∈ first :: others, 1 ≤ c.count ∧ c.count ≤ 8 ∧ c.first < 256 ∧ c.last < 256 ∧
        (c.follow = false → c.first ≤ c.last ∧ c.last ≤ 31 ∧ c.cursor.val = c.first) ∧
        (c.follow = true → c.cursor = firstLineOfBand s.touch.band)) →
      (∀ l : Fin 32, ∃ c ∈ first :: others, c.follow = false ∧ c.first ≤ l.val ∧ l.val ≤ c.last) →
      exec (.setCalendar b) s = .next ({ s with cal := { s.cal with
        slots := first :: others
        current := 0
        visitsLeft := first.count
        visit := none } }.answer 0x48 tag .ok []))

/-- R47, R71, R148, R154, R177, R187: settings that lie outside their ranges are refused, and nothing changes. The
model's own: of SET CONTROL CODES with a bad table while a slot is in use BAD_ARGUMENT comes before SLOT_STATE (log entry
23), and a follow byte above 1 is BAD_CALENDAR (log entry 14). -/
def Obligations.SettingsOutOfRangeAreRefused : Prop :=
  ∀ (s : State) (b : CommandBody) (tag : Byte),
    (∀ (escape : Byte) (table : List Byte) (codes : Vector ControlEntry 8), SpellsCodes table codes →
      b = frameOf tag (escape :: table) → s.Accepts 0x14 b →
      (((∃ c ∈ consulted codes.toList, c.action = none ∨ c.code = some escape) ∨
          ¬ ((consulted codes.toList).filterMap ControlEntry.code).Nodup) →
        exec (.setControlCodes b) s = .next (s.answer 0x14 tag .badArgument [])) ∧
      ((∀ c ∈ consulted codes.toList, c.action ≠ none ∧ c.code ≠ some escape) →
        ((consulted codes.toList).filterMap ControlEntry.code).Nodup → (∃ j : Fin 2, s.load.slots[j] ≠ none) →
        exec (.setControlCodes b) s = .next (s.answer 0x14 tag .slotState []))) ∧
    (∀ v : Byte, b = frameOf tag [v] → s.Accepts 0x3A b → 2 ≤ v.toNat →
      exec (.setNavigation b) s = .next (s.answer 0x3A tag .badArgument [])) ∧
    (∀ (tOn tOff : BitVec 16) (limit : Byte), b = frameOf tag (put16 tOn ++ put16 tOff ++ [limit]) →
      s.Accepts 0x60 b →
      (tOn.toNat < 16 ∨ 1000 < tOn.toNat ∨ tOff = 0 ∨ 999 < tOff.toNat ∨ tOn.toNat ≤ tOff.toNat ∨ limit = 0 ∨
        16 < limit.toNat) →
      exec (.setTouch b) s = .next (s.answer 0x60 tag .badArgument [])) ∧
    (∀ mask : BitVec 16, b = frameOf tag (put16 mask) → s.Accepts 0x70 b → 512 ≤ mask.toNat →
      exec (.setNoticeMask b) s = .next (s.answer 0x70 tag .badArgument [])) ∧
    (∀ strokeTime rate cap extra : Byte, b = frameOf tag [strokeTime, rate, cap, extra] → s.Accepts 0x50 b →
      (strokeTime.toNat < 8 ∨ 32 < strokeTime.toNat ∨ rate.toNat < 20 ∨ 200 < rate.toNat ∨ cap = 0 ∨
        20 < cap.toNat ∨ 4 < extra.toNat) →
      exec (.setDrive b) s = .next (s.answer 0x50 tag .badArgument [])) ∧
    (∀ (n : Byte) (slots : List Byte), b = frameOf tag (n :: slots) → slots.length = 16 → s.Accepts 0x48 b →
      (n = 0 ∨ 4 < n.toNat ∨
        (∃ j, j < n.toNat ∧ (slots.getD (4 * j + 2) 0 = 0 ∨ 8 < (slots.getD (4 * j + 2) 0).toNat ∨
          (slots.getD (4 * j + 3) 0 = 1 ∧ j ≠ 0) ∨
          1 < (slots.getD (4 * j + 3) 0).toNat ∨
          (slots.getD (4 * j + 3) 0 = 0 ∧ (31 < (slots.getD (4 * j) 0).toNat ∨
            31 < (slots.getD (4 * j + 1) 0).toNat ∨
            (slots.getD (4 * j + 1) 0).toNat < (slots.getD (4 * j) 0).toNat)))) ∨
        ∃ l, l < 32 ∧ ∀ j, j < n.toNat → slots.getD (4 * j + 3) 0 = 0 →
          ¬ ((slots.getD (4 * j) 0).toNat ≤ l ∧ l ≤ (slots.getD (4 * j + 1) 0).toNat)) →
      exec (.setCalendar b) s = .next (s.answer 0x48 tag .badCalendar []))

/-! ### Reports -/

/-- R1, R15 to R17, R128, R184: QUERY ENTRY, LIST ENTRIES and READ ROW answer from the state as it stands and change
nothing. A summary shows its entry's fields: of a LOADING entry its own slot and the marks so far, of a visible entry the
slot of a load of the same key, of a FREE entry the FREE values. LIST ENTRIES returns the summaries from the first index on,
as many whole ones as fit. The page bytes of an absent key are free (the model's log entry 7). -/
def Obligations.ReportsReadTheState : Prop :=
  ∀ (s : State) (b : CommandBody) (tag : Byte),
    (∀ k : Key, b = frameOf tag (putKey k) → s.Accepts 0x20 b → s.PagesAgree →
      (∀ v, s.dir.visibleEntry k = some v →
        ∃ bytes, s.Summary v bytes ∧ exec (.queryEntry b) s = .next (s.answer 0x20 tag .ok bytes)) ∧
      (∀ (j : Fin 2) (r : LoadSlot), s.dir.visibleEntry k = none → s.load.slots[j] = some r → r.key = k →
        exec (.queryEntry b) s = .next (s.answer 0x20 tag .notFound [1, put8 j.val])) ∧
      ((∀ i : Fin 48, s.dir.entries[i].key ≠ some k) →
        exec (.queryEntry b) s = .next (s.answer 0x20 tag .notFound [0, 0xFF]))) ∧
    (∀ first count : Nat, b = frameOf tag [put8 first, put8 count] → s.Accepts 0x21 b → s.MarksSound →
      first < 48 → 1 ≤ count → first + count ≤ 48 →
      ∃ summaries : List (List Byte), 1 ≤ summaries.length ∧ summaries.length ≤ count ∧
        (∀ (j : Nat) (i : Fin 48) (bytes : List Byte), summaries[j]? = some bytes → i.val = first + j →
          s.Summary i bytes ∧ (s.PagesAgree → s.dir.entries[i].state = .free →
            ∃ x y, bytes = [put8 i.val, 0, 0xFF, x, y, 0, 0, 0, 0, 0, 0, 0xFF, 0])) ∧
        summaries.flatten.length ≤ 299 ∧
        (∀ i : Fin 48, summaries.length < count → i.val = first + summaries.length →
          299 < summaries.flatten.length + (13 + 5 * s.dir.entries[i].marks.length)) ∧
        exec (.listEntries b) s = .next (s.answer 0x21 tag .ok (put8 summaries.length :: summaries.flatten))) ∧
    (∀ first count : Byte, b = frameOf tag [first, count] → s.Accepts 0x21 b →
      (47 < first.toNat ∨ count = 0 ∨ 48 < first.toNat + count.toNat) →
      exec (.listEntries b) s = .next (s.answer 0x21 tag .badArgument [])) ∧
    (∀ r : Fin 128, b = frameOf tag [put8 r.val] → s.Accepts 0x5A b →
      ∃ (deferred stuck : PinRow) (c t d k : List Byte),
        (∀ c : Fin 80, deferred.getLsbD c.val = true ↔
          s.pins.known[r] = true ∧ s.comp.target[r].getLsbD c.val ≠ s.pins.confirmed[r].getLsbD c.val ∧
          (∀ f ∈ s.pins.faults, ¬ (f.row = r ∧ f.col = c)) ∧ s.touch.zones[zoneOfPin r c].state = .touched) ∧
        (∀ c : Fin 80, stuck.getLsbD c.val = true ↔ ∃ f ∈ s.pins.faults, f.row = r ∧ f.col = c) ∧
        SpellsRow c s.pins.confirmed[r] ∧ SpellsRow t s.comp.target[r] ∧ SpellsRow d deferred ∧ SpellsRow k stuck ∧
        exec (.readRow b) s = .next (s.answer 0x5A tag .ok
          ((if s.pins.known[r] then 1 else 0) :: c ++ t ++ d ++ k))) ∧
    (∀ r : Byte, b = frameOf tag [r] → s.Accepts 0x5A b → 128 ≤ r.toNat →
      exec (.readRow b) s = .next (s.answer 0x5A tag .badArgument []))

/-- R127: READ FAULTS is taken whenever its frame is, reports the number of records and the records in table order, and
changes nothing else: the table and the queued notices stay. -/
def Obligations.ReadFaultsListsTheTable : Prop :=
  ∀ (s : State) (b : CommandBody) (tag : Byte), b = frameOf tag [] → s.Accepts 0x58 b →
    exec (.readFaults b) s = .next (s.answer 0x58 tag .ok (put8 s.pins.faults.length ::
      s.pins.faults.flatMap fun f => [put8 f.row.val, put8 f.col.val, if f.stuckUp then 0 else 1])) ∧
    (s.PinsSound → (put8 s.pins.faults.length).toNat = s.pins.faults.length ∧ s.pins.faults.length ≤ 64)

/-- R188: READ STATUS reports its seven groups in 61 bytes and changes nothing. Of an absent key and of an IDLE slot or
sweep, the bytes to which the manual gives no value are free (log entry 7); of an offset of 2^32 or more the low 32 bits are
reported (log entry 26). Both are the model's. -/
def Obligations.ReadStatusReportsTheGroups : Prop :=
  ∀ (s : State) (b : CommandBody) (tag : Byte), b = frameOf tag [] → s.Accepts 0x71 b →
    ∃ payload shownKey missKey slot0 slot1 sweep : List Byte,
      exec (.readStatus b) s = .next (s.answer 0x71 tag .ok payload) ∧ payload.length = 61 ∧
      payload =
        [if s.cal.sched = .surveying then 0 else if s.cal.sched = .driving then 1 else
            if s.cal.sched = .idle then 2 else if s.cal.sched = .paused then 3 else 4,
          if s.cal.hold then 1 else 0, if s.drive.supply = .ok then 0 else 1] ++ putNat16 s.drive.level ++
          [s.nav.document.setWidth 8] ++ shownKey ++ [putBool s.nav.wanted.isSome] ++
          put16 (s.nav.wanted.getD 0) ++
          [if s.nav.cond = .settled then 0 else if s.nav.cond = .waitMiss then 1 else
            if s.nav.cond = .waitLoad then 2 else 3, if s.nav.lock then 1 else 0] ++
          missKey ++ [putBool s.nav.missLocked] ++ slot0 ++ slot1 ++ sweep ++
          (List.finRange 16).map (fun z => if s.touch.zones[z].state = .clear then 0 else
            if s.touch.zones[z].state = .touched then 1 else 2) ++ [put8 s.touch.band.val] ++
          [put8 s.link.notices.length, if s.link.cause = .powerOn then 0 else if s.link.cause = .pin then 1 else 2] ∧
      (∀ k ∈ s.nav.shownKey, shownKey = putKey k) ∧ (∀ k ∈ s.nav.missKey, missKey = putKey k) ∧
      (s.nav.shownKey = none → shownKey.length = 3 ∧ shownKey.head? = some 0xFF) ∧
      (s.nav.missKey = none → missKey.length = 3 ∧ missKey.head? = some 0xFF) ∧
      (∀ r ∈ s.load.slots[(0 : Fin 2)], slot0 =
        [if r.complete then 2 else 1] ++ putKey r.key ++ [put8 r.entry.val] ++ putNat32 r.offset) ∧
      (∀ r ∈ s.load.slots[(1 : Fin 2)], slot1 =
        [if r.complete then 2 else 1] ++ putKey r.key ++ [put8 r.entry.val] ++ putNat32 r.offset) ∧
      (s.load.slots[(0 : Fin 2)] = none →
        slot0.length = 9 ∧ slot0.take 2 = [0, 0xFF] ∧ slot0.getD 4 0 = 0xFF) ∧
      (s.load.slots[(1 : Fin 2)] = none →
        slot1.length = 9 ∧ slot1.take 2 = [0, 0xFF] ∧ slot1.getD 4 0 = 0xFF) ∧
      (∀ r ∈ s.sweep, sweep = [1, put8 r.progress.val, put8 r.matched, put8 r.changed, put8 r.skippedShown,
        put8 r.collisions]) ∧
      (s.sweep = none → ∃ x, sweep = [0, x, 0, 0, 0, 0])

/-! ### Commands on entries and marks -/

/-- R13, R15, R20, R27, R41, R46, R52, R54, R72, R85: an argument of a key command, a load command or a sweep that lies
outside its range is refused with BAD_ARGUMENT, and a slot that is not in the state the command needs with SLOT_STATE;
nothing changes. That a sweep's document byte is checked although the document is not enabled is the model's reading
(log entry 15). -/
def Obligations.ArgumentsAreChecked : Prop :=
  ∀ (s : State) (b : CommandBody) (tag code : Byte) (payload : List Byte) (row : Instr) (at' : Nat → Nat),
    b = frameOf tag payload → commandRow code b = some row → lengthAllowed code payload.length = true →
    s.Accepts code b → (∀ j, at' j = (payload.getD j 0).toNat) →
    (((code ∈ [0x20#8, 0x22#8, 0x23#8, 0x24#8, 0x28#8, 0x29#8, 0x38#8] ∧ 16 ≤ at' 0) ∨
      (code = 0x22 ∧ (32 ≤ at' 6 ∨ 40 ≤ at' 7 ∨ 40 < at' 7 + (payload.length - 8))) ∨
      (code = 0x24 ∧ (2 ≤ at' 3 ∨ 16 ≤ at' 4)) ∨
      (code = 0x28 ∧ (4 ≤ at' 6 ∨ 32 ≤ at' 7 ∨ 40 ≤ at' 8 ∨ at' 9 = 0 ∨ 40 < at' 8 + at' 9)) ∨
      (code = 0x29 ∧ (16 ≤ at' 6 ∨ 4 ≤ at' 7 ∨ (32 ≤ at' 8 ∧ at' 8 ≠ 0xFF))) ∨
      (code ∈ [0x11#8, 0x12#8, 0x13#8] ∧ 2 ≤ at' 0) ∨
      (code = 0x12 ∧ payload.length = 4 ∧ at' 1 ∉ [1, 2, 3]) ∨
      (code = 0x30 ∧ (2 ≤ at' 0 ∨ 16 ≤ at' 1 ∨ at' 4 + 256 * at' 5 < at' 2 + 256 * at' 3 ∨ 16 ≤ at' 6 ∨
        16 ≤ at' 7 ∨ 16 ≤ at' 8 ∨ at' 9 = 0 ∨ 32 ≤ at' 9 ∨ (at' 9 % 2 = 1 ∧ at' 9 ≠ 1) ∨
        (at' 9 / 2 % 2 = 1 ∧ 2 ≤ at' 10) ∨ (at' 9 / 4 % 2 = 1 ∧ 16 ≤ at' 11) ∨
        (at' 9 / 8 % 2 = 1 ∧ (16 ≤ at' 12 ∨ 4 ≤ at' 13)) ∨ (at' 9 / 16 % 2 = 1 ∧ 16 ≤ at' 14)))) →
      exec row s = .next (s.answer code tag .badArgument [])) ∧
    ∀ i : Fin 2, at' 0 = i.val →
      ((code = 0x11 ∧ ∀ r ∈ s.load.slots[i], r.complete = true) ∨
        (code = 0x13 ∧ s.load.slots[i] = none)) →
      exec row s = .next (s.answer code tag .slotState [])

/-- R14: UNCONDITIONAL always holds, IF_REVISION r holds when the revision equals r, as a plain equality, and any other
condition code is refused with BAD_ARGUMENT by the four commands that carry a condition. -/
def Obligations.ConditionsAreChecked : Prop :=
  (∀ v : BitVec 16, Condition.unconditional.holds v = true) ∧
  (∀ r v : BitVec 16, (Condition.ifRevision r).holds v = true ↔ v = r) ∧
  ∀ (s : State) (b : CommandBody) (tag code d p0 p1 c : Byte) (rest : List Byte) (row : Instr),
    b = frameOf tag (d :: p0 :: p1 :: c :: rest) → code ∈ [0x22#8, 0x23#8, 0x28#8, 0x29#8] →
    commandRow code b = some row → lengthAllowed code (rest.length + 4) = true → s.Accepts code b →
    c ≠ 0 → c ≠ 1 → exec row s = .next (s.answer code tag .badArgument [])

/-- R13, R52, R54: the five commands on a key check in one order: the key, the kind, the HELD flag, the state, the
condition. The refusals from the HELD flag on carry the revision. -/
def Obligations.EntryCommandsCheckInOrder : Prop :=
  ∀ (s : State) (b : CommandBody) (tag code : Byte) (k : Key) (c : Condition) (payload : List Byte) (row : Instr),
    b = frameOf tag payload → EntryCommand code k c payload → commandRow code b = some row → s.Accepts code b →
    (s.dir.visibleEntry k = none → exec row s = .next (s.answer code tag .notFound [])) ∧
    ∀ v, s.dir.visibleEntry k = some v →
      (code = 0x22 → s.dir.entries[v].kind = .raw → exec row s = .next (s.answer code tag .badArgument [])) ∧
      (¬ (code = 0x22 ∧ s.dir.entries[v].kind = .raw) →
        (s.dir.entries[v].held = true →
          exec row s = .next (s.answer code tag .held (put16 s.dir.entries[v].revision))) ∧
        (s.dir.entries[v].held = false → code = 0x23 → s.dir.entries[v].state = .shown →
          exec row s = .next (s.answer code tag .shownEntry (put16 s.dir.entries[v].revision))) ∧
        (∀ r, s.dir.entries[v].held = false → ¬ (code = 0x23 ∧ s.dir.entries[v].state = .shown) →
          c = .ifRevision r → s.dir.entries[v].revision ≠ r →
          exec row s = .next (s.answer code tag .stale (put16 s.dir.entries[v].revision))))

/-- R18: PATCH CELLS on a visible TEXT entry that is not HELD, its condition holding, writes its bytes to consecutive
cells of the line and no other byte of any frame, and advances the revision. When the entry is SHOWN the line is
composed again, and the pin path follows. -/
def Obligations.PatchCellsWritesTheLine : Prop :=
  ∀ (s : State) (b : CommandBody) (tag x y : Byte) (k : Key) (c : Condition) (line : Fin 32) (first : Nat)
    (cells : List Byte) (v : Fin 48),
    b = frameOf tag (putKey k ++ c.bytes x y ++ [put8 line.val, put8 first] ++ cells) → s.Accepts 0x22 b →
    Memory.wf s.dir.frames = true → cells ≠ [] → first + cells.length ≤ 40 → s.dir.visibleEntry k = some v →
    s.dir.entries[v].kind = .text → s.dir.entries[v].held = false → c.holds s.dir.entries[v].revision = true →
    ∃ t u : State,
      t = { s with dir := { s.dir with
        entries := s.dir.entries.set v { s.dir.entries[v] with revision := s.dir.entries[v].revision + 1 }
        frames := t.dir.frames } } ∧
      (∀ (j : Fin 48) (o : Nat), o < 1280 → t.dir.frameByte j o =
        if j = v ∧ 40 * line.val + first ≤ o ∧ o < 40 * line.val + first + cells.length then
          cells.getD (o - (40 * line.val + first)) 0
        else s.dir.frameByte j o) ∧
      PinPath t u ∧ (s.dir.entries[v].state ≠ .shown → u = t) ∧
      (s.dir.entries[v].state = .shown → u = t.recompose [line] ∧
        ∀ r : Fin 128, lineOfRow r = line → u.comp.target[r] = u.composeRow r) ∧
      exec (.patchCells b) s = .next (u.answer 0x22 tag .ok (put16 (s.dir.entries[v].revision + 1)))

/-- R19, R20, R10, R11: RETIRE makes a READY entry FREE and takes it out of the reclaim queue; SET ENTRY sets both fields,
keeps the revision, and moves a READY entry in the queue only when its pinned value changes. -/
def Obligations.RetireAndSetEntry : Prop :=
  ∀ (s : State) (b : CommandBody) (tag x y : Byte) (k : Key) (c : Condition) (v : Fin 48),
    s.dir.visibleEntry k = some v → s.dir.entries[v].held = false →
    (b = frameOf tag (putKey k ++ c.bytes x y) → s.Accepts 0x23 b → s.dir.entries[v].state = .ready →
      c.holds s.dir.entries[v].revision = true →
      exec (.retire b) s = .next ({ s with dir := { s.dir with
          entries := s.dir.entries.set v Entry.free
          queue := s.dir.queue.filter (· ≠ v) } }.answer 0x23 tag .ok
        (put8 v.val :: put16 s.dir.entries[v].revision))) ∧
    (∀ (pinned : Bool) (group : BitVec 4), b = frameOf tag (putKey k ++ [putBool pinned, group.setWidth 8]) →
      s.Accepts 0x24 b → s.PagesAgree →
      exec (.setEntry b) s = .next ({ s with dir := { s.dir with
          entries := s.dir.entries.set v { s.dir.entries[v] with pinned := pinned, group := group }
          queue :=
            if s.dir.entries[v].state = EntryState.ready ∧ s.dir.entries[v].pinned ≠ pinned then
              (if pinned then s.dir.queue.filter (· ≠ v) else s.dir.queue ++ [v])
            else s.dir.queue } }.answer 0x24 tag .ok (put16 s.dir.entries[v].revision)))

/-- R52, R53: ADD MARK on a visible entry that is not HELD, its condition holding: a mark that is there already changes
nothing; with room the SUPPLIED mark is appended, the revision advances, and when the entry is SHOWN the mark's line is
composed again; on a full list the command is refused with MARKS_FULL. -/
def Obligations.AddMarkAppends : Prop :=
  ∀ (s : State) (b : CommandBody) (tag x y : Byte) (k : Key) (c : Condition) (m : Mark) (v : Fin 48),
    b = frameOf tag (putKey k ++ c.bytes x y ++ [put8 m.cls.code, put8 m.line.val, put8 m.first, put8 m.length]) →
    s.Accepts 0x28 b → m.owner = .supplied → m.InLine → s.dir.visibleEntry k = some v →
    s.dir.entries[v].held = false → c.holds s.dir.entries[v].revision = true →
    (m ∈ s.dir.entries[v].marks → exec (.addMark b) s = .next (s.answer 0x28 tag .ok
      (put16 s.dir.entries[v].revision ++ [1, put8 s.dir.entries[v].marks.length]))) ∧
    (m ∉ s.dir.entries[v].marks → s.dir.entries[v].marks.length < 8 →
      ∃ t u : State,
        t = { s with dir := { s.dir with entries := s.dir.entries.set v { s.dir.entries[v] with
          marks := s.dir.entries[v].marks ++ [m], revision := s.dir.entries[v].revision + 1 } } } ∧
        PinPath t u ∧ (s.dir.entries[v].state ≠ .shown → u = t) ∧
        (s.dir.entries[v].state = .shown → u = t.recompose [m.line] ∧ ∀ r : Fin 128, lineOfRow r = m.line →
          u.comp.target[r] = u.composeRow r) ∧
        exec (.addMark b) s = .next (u.answer 0x28 tag .ok
          (put16 (s.dir.entries[v].revision + 1) ++ [0, put8 (s.dir.entries[v].marks.length + 1)]))) ∧
    (m ∉ s.dir.entries[v].marks → 8 ≤ s.dir.entries[v].marks.length → exec (.addMark b) s =
      .next (s.answer 0x28 tag .marksFull (put16 s.dir.entries[v].revision)))

/-- R54, R55: DROP MARKS on a visible entry that is not HELD, its condition holding, removes every mark of its classes and
owners on its line or on all lines, and keeps the others in their order. The revision advances when a mark was removed;
without one nothing changes. When the entry is SHOWN the lines that lost marks are composed again; that they are composed as
one whole is the model's (log entry 9). -/
def Obligations.DropMarksRemovesTheMatching : Prop :=
  ∀ (s : State) (b : CommandBody) (tag x y : Byte) (k : Key) (c : Condition) (classes : BitVec 4)
    (owners : BitVec 2) (line : Option (Fin 32)) (v : Fin 48) (gone kept : List Mark),
    b = frameOf tag (putKey k ++ c.bytes x y ++
      [classes.setWidth 8, owners.setWidth 8, putIndexOr (line.map Fin.val)]) →
    s.Accepts 0x29 b → s.dir.visibleEntry k = some v → s.dir.entries[v].held = false →
    c.holds s.dir.entries[v].revision = true →
    gone = s.dir.entries[v].marks.filter (fun m => decide (classes.getLsbD m.cls.code = true ∧
      owners.getLsbD m.owner.code = true ∧ ∀ l ∈ line, m.line = l)) →
    kept = s.dir.entries[v].marks.filter (fun m => !decide (classes.getLsbD m.cls.code = true ∧
      owners.getLsbD m.owner.code = true ∧ ∀ l ∈ line, m.line = l)) →
    (gone = [] → exec (.dropMarks b) s = .next (s.answer 0x29 tag .ok
      (0 :: put16 s.dir.entries[v].revision ++ [put8 s.dir.entries[v].marks.length]))) ∧
    (gone ≠ [] → ∃ t u : State,
      t = { s with dir := { s.dir with entries := s.dir.entries.set v { s.dir.entries[v] with
        marks := kept, revision := s.dir.entries[v].revision + 1 } } } ∧
      PinPath t u ∧ (s.dir.entries[v].state ≠ .shown → u = t) ∧
      (s.dir.entries[v].state = .shown → u = t.recompose (gone.map Mark.line) ∧
        ∀ m ∈ gone, ∀ r : Fin 128, lineOfRow r = m.line → u.comp.target[r] = u.composeRow r) ∧
      exec (.dropMarks b) s = .next (u.answer 0x29 tag .ok
        (put8 gone.length :: put16 (s.dir.entries[v].revision + 1) ++ [put8 kept.length])))

/-! ### Sweeps -/

/-- R83, R85, R86: SWEEP on an IDLE engine freezes exactly the entries that match, counts them and starts the pass at
entry 0; on a RUNNING engine it is refused with SWEEP_BUSY. -/
def Obligations.SweepFreezesTheMatching : Prop :=
  ∀ (s : State) (b : CommandBody) (tag : Byte) (d : SweepDescriptor), b = frameOf tag d.bytes → d.Valid →
    s.Accepts 0x30 b →
    (s.sweep = none → ∃ (t : State) (n : Nat),
      n = (List.finRange 48).countP (fun i => decide (d.Takes s.dir.entries[i])) ∧
      t = { s with dir := { s.dir with entries := t.dir.entries }, sweep := some ⟨d, 0, n, 0, 0, 0⟩ } ∧
      (∀ i : Fin 48, t.dir.entries[i] =
        if d.Takes s.dir.entries[i] then { s.dir.entries[i] with held := true } else s.dir.entries[i]) ∧
      exec (.sweep b) s = .next (t.answer 0x30 tag .accepted [put8 n])) ∧
    (s.sweep ≠ none → exec (.sweep b) s = .next (s.answer 0x30 tag .sweepBusy []))

/-- R76, R77, R87 to R93: a sweep visit. An entry that is not HELD is passed over; RETIRE frees an entry and skips the SHOWN
one; a move to a taken key is a collision; any other visit applies its actions together and releases the entry, which
counts as changed when something of it changed. When the SHOWN entry lost marks their lines are composed again. Then
navigation is told of the released key, or of the move, and last the progress moves on. The model's own: that order (log
entry 22), that the lines are composed as one whole (log entry 9), and that a visit of an IDLE engine leaves the state as it
is (log entry 2). -/
def Obligations.SweepVisitsOneEntry : Prop :=
  ∀ s : State, s.resetPin = false →
    (s.sweep = none → exec .sweepVisit s = .next s) ∧
    ∀ (r : SweepRun) (e : Entry) (k : Key), s.sweep = some r → e = s.dir.entries[r.progress] →
      (e.held = false → exec .sweepVisit s = .next (s.visited r)) ∧
      (e.held = true → e.key = some k → s.PagesAgree →
        (r.descriptor.retire = true → e.state = .shown → ∃ t : State,
          ({ s with dir := { s.dir with entries := s.dir.entries.set r.progress { e with held := false } } } :
            State).TellsKey k t ∧
          exec .sweepVisit s = .next (t.visited { r with skippedShown := r.skippedShown + 1 })) ∧
        (r.descriptor.retire = true → e.state = .ready → ∃ t : State,
          ({ s with dir := { s.dir with
            entries := s.dir.entries.set r.progress Entry.free
            queue := s.dir.queue.filter (· ≠ r.progress) } } : State).TellsKey k t ∧
          exec .sweepVisit s = .next (t.visited { r with changed := r.changed + 1 })) ∧
        ∀ moved : Key, moved = ⟨r.descriptor.moveDoc.getD k.doc, k.page⟩ → r.descriptor.retire = false →
          (moved ≠ k → ((s.dir.visibleEntry moved).isSome = true ∨ ∃ j : Fin 2, ∃ q ∈ s.load.slots[j], q.key = moved) →
            ∃ t : State,
              ({ s with dir := { s.dir with entries := s.dir.entries.set r.progress { e with held := false } } } :
                State).TellsKey k t ∧
              exec .sweepVisit s = .next (t.visited { r with collisions := r.collisions + 1 })) ∧
          ((moved = k ∨ (s.dir.visibleEntry moved = none ∧ ∀ j : Fin 2, ∀ q ∈ s.load.slots[j], q.key ≠ moved)) →
            ∀ (lost : List Mark) (e' : Entry) (base : State), lost = e.marks.filter (fun m => decide
                (∃ c ∈ r.descriptor.clearMarks, c.1.getLsbD m.cls.code = true ∧ c.2.getLsbD m.owner.code = true)) →
              e' = { e with
                held := false
                pinned := r.descriptor.setPin.getD e.pinned
                group := r.descriptor.setGroup.getD e.group
                marks := e.marks.filter fun m => !decide (∃ c ∈ r.descriptor.clearMarks,
                  c.1.getLsbD m.cls.code = true ∧ c.2.getLsbD m.owner.code = true)
                key := some moved
                revision := if lost = [] ∧ moved = k then e.revision else e.revision + 1 } →
              base = { s with dir := { s.dir with
                entries := s.dir.entries.set r.progress e'
                queue :=
                  if e.state = EntryState.ready ∧ e'.pinned ≠ e.pinned then
                    (if e'.pinned then s.dir.queue.filter (· ≠ r.progress) else s.dir.queue ++ [r.progress])
                  else s.dir.queue } } →
            ∃ u t : State, PinPath base u ∧ (e.state = .ready ∨ lost = [] → u = base) ∧
              (e.state = .shown → lost ≠ [] → u = base.recompose (lost.map Mark.line) ∧
                ∀ m ∈ lost, ∀ row : Fin 128, lineOfRow row = m.line → u.comp.target[row] = u.composeRow row) ∧
              (moved = k → u.TellsKey k t) ∧
              (moved ≠ k → u.TellsMoved k moved (decide (e.state = .shown)) t) ∧
              exec .sweepVisit s = .next (t.visited
                (if e'.pinned = e.pinned ∧ e'.group = e.group ∧ lost = [] ∧ moved = k then r
                else { r with changed := r.changed + 1 }))))

/-- R76, R94: ABORT SWEEP releases every HELD entry unchanged, tells navigation of each, posts SWEEP_DONE with aborted yes
and makes the engine IDLE. A waiting navigation evaluates its wanted key when that is the key of a released entry. On an
IDLE engine the command changes nothing; that it answers OK with 0 entries released is the model's reading (log entry
17). -/
def Obligations.AbortSweepReleasesAll : Prop :=
  ∀ (s : State) (b : CommandBody) (tag : Byte), b = frameOf tag [] → s.Accepts 0x31 b →
    (s.sweep = none → exec (.abortSweep b) s = .next (s.answer 0x31 tag .ok [0])) ∧
    ∀ (r : SweepRun) (released : State), s.sweep = some r →
      released = { s with dir := { s.dir with
        entries := s.dir.entries.map (fun e : Entry => { e with held := false }) } } →
      ∃ t : State,
        ((s.nav.cond = .settled ∨ ∀ i : Fin 48, s.dir.entries[i].held = true →
          s.nav.wantedKey = none ∨ s.dir.entries[i].key ≠ s.nav.wantedKey) → t = released) ∧
        (∀ (i : Fin 48) (k : Key), s.PagesAgree → s.nav.cond ≠ .settled → s.dir.entries[i].held = true →
          s.dir.entries[i].key = some k → s.nav.wantedKey = some k → released.Evaluates .nav t) ∧
        exec (.abortSweep b) s = .next ({ t.post
          (.sweepDone r.matched r.changed r.skippedShown r.collisions true) with sweep := none }.answer 0x31 tag .ok
          [put8 ((List.finRange 48).countP (fun i : Fin 48 => s.dir.entries[i].held))])

/-! ### Navigation -/

/-- R7, R10, R67, R72: SHOW evaluates its key. An absent key is refused and nothing changes. A visible key is shown at
once, with the whole page composed, and navigation is SETTLED with a SHOWN notice of cause COMMAND; a HELD key and a
loading key leave navigation waiting, and the entry that was SHOWN stays. The answer is the condition and the shown key,
whose page bytes are free when it is absent (the model's log entry 7). Showing a READY entry makes it SHOWN and takes it
out of the reclaim queue; an entry that was SHOWN becomes READY and joins the tail unless it is pinned. Frames and all
other entries stay. -/
def Obligations.ShowEvaluatesItsKey : Prop :=
  (∀ (s : State) (b : CommandBody) (tag : Byte) (k : Key), b = frameOf tag (putKey k) → s.Accepts 0x38 b →
    ((∀ i : Fin 48, s.dir.entries[i].state ≠ .free → s.dir.entries[i].key ≠ some k) →
      exec (.showKey b) s = .next (s.answer 0x38 tag .notFound [])) ∧
    (∀ i : Fin 48, s.dir.entries[i].state ≠ .free → s.dir.entries[i].key = some k →
      ∃ (t : State) (rest : List Byte),
        ({ s with nav := { s.nav with document := k.doc, wanted := some k.page } } : State).Evaluates .command t ∧
        (∀ x ∈ t.nav.shownKey, rest = putKey x) ∧
        (t.nav.shownKey = none → rest.length = 3 ∧ rest.head? = some 0xFF) ∧
        exec (.showKey b) s = .next (t.answer 0x38 tag .ok
          ((if t.nav.cond = .settled then 0 else if t.nav.cond = .waitMiss then 1 else
            if t.nav.cond = .waitLoad then 2 else 3) :: rest))) ∧
    (∀ v, s.dir.visibleEntry k = some v → s.dir.entries[v].held = false →
      ∃ t u : State,
        t = { s with
          dir := t.dir
          nav := { s.nav with
            document := k.doc, wanted := some k.page, shownKey := some k, cond := .settled } } ∧
        (s.dir.entries[v].state = .shown → t.dir = s.dir) ∧
        (s.dir.entries[v].state = .ready → t.dir = s.dir.showEntry v ∧
          ∀ r : Fin 128, u.comp.target[r] = u.composeRow r) ∧
        PinPath (t.post (.shown k .command)) u ∧
        exec (.showKey b) s = .next (u.answer 0x38 tag .ok (0 :: putKey k)))) ∧
  ∀ (d : Directory) (i : Fin 48), d.entries[i].state = .ready → d.QueueExact →
    (∀ j k : Fin 48, d.entries[j].state = .shown → d.entries[k].state = .shown → j = k) →
    (d.showEntry i).entries[i] = { d.entries[i] with state := .shown } ∧
    (∀ j : Fin 48, j ≠ i → (d.showEntry i).entries[j] =
      if d.entries[j].state = .shown then { d.entries[j] with state := .ready } else d.entries[j]) ∧
    (d.showEntry i).frames = d.frames ∧
    ((∀ j : Fin 48, d.entries[j].state ≠ .shown) → (d.showEntry i).queue = d.queue.filter (· ≠ i)) ∧
    ∀ j : Fin 48, d.entries[j].state = .shown →
      (d.showEntry i).queue = d.queue.filter (· ≠ i) ++ (if d.entries[j].pinned then [] else [j])

/-- R73: DECLINE MISS unlocks a locked miss record and returns a waiting navigation to the shown key, SETTLED; with the
record unlocked it changes nothing, and on a SETTLED navigation the unlock is the only change. No key is evaluated; an
enabled status line is composed again when the condition passes to SETTLED. That the answer carries the navigation state
with the record unlocked, too, is the model's reading (log entry 17), and its page bytes of an absent key are free (log
entry 7). -/
def Obligations.DeclineMissReturnsToTheShownPage : Prop :=
  ∀ (s : State) (b : CommandBody) (tag : Byte), b = frameOf tag [] → s.Accepts 0x39 b →
    (s.nav.missLocked = false →
      exec (.declineMiss b) s = .next (s.answer 0x39 tag .ok (putNavigation s))) ∧
    (s.nav.missLocked = true →
      ∃ t u : State,
        t = { s with nav := if s.nav.cond = .settled then { s.nav with missLocked := false }
          else { s.nav with
            missLocked := false
            document := (s.nav.shownKey.map Key.doc).getD s.nav.document
            wanted := s.nav.shownKey.map Key.page
            cond := .settled } } ∧
        PinPath t u ∧ (s.nav.cond = .settled ∨ s.comp.statusOn = false → u = t) ∧
        (s.nav.cond ≠ .settled → s.comp.statusOn = true → u = t.recompose [31] ∧
          ∀ r : Fin 128, 124 ≤ r.val → u.comp.target[r] = u.composeRow r) ∧
        exec (.declineMiss b) s = .next (u.answer 0x39 tag .ok (putNavigation u)))

/-- R63, R64: a sample moves each of the five debouncers by its table, whatever presses it registers. A sample that
registers no press changes nothing else; one that registers the CALL key alone posts KEY, and does no more. -/
def Obligations.KeySamplesAreDebounced : Prop :=
  ∀ (s : State) (prev next mark seek call : Bool), s.resetPin = false →
    ∃ (keys : Vector Debouncer 5) (t : State), Sampled s.nav.keys #v[prev, next, mark, seek, call] keys ∧
      exec (.keySample prev next mark seek call) s = .next t ∧ t.nav.keys = keys ∧
      (OnlyPresses s.nav.keys #v[prev, next, mark, seek, call] none →
        t = { s with nav := { s.nav with keys := keys } }) ∧
      (OnlyPresses s.nav.keys #v[prev, next, mark, seek, call] (some 4) →
        t = { s with nav := { s.nav with keys := keys } }.post (.key 0 0 0 0 1))

/-- R56, R57, R64, R67, R69 to R71, R79: what the presses that a sample registers do, any number of them: they are acted on
one after another in the order PREV, NEXT, MARK, SEEK, CALL, each on the state the one before it left. Each posts its KEY
notice, and then its key acts. PREV and NEXT want the page before and after and evaluate its key; at page 0 and at page
65535 they do nothing. SEEK wants, of the pages of the document that are visible, not HELD and carry a BOOKMARK, the
smallest above the wanted page, or else the smallest, and evaluates its key; without such a page it does nothing. With the
lock on, or no page wanted, PREV, NEXT and SEEK do nothing. MARK toggles the patron bookmark of the reading band on the
SHOWN TEXT entry, whose line is composed again; it does nothing when no entry is SHOWN, when that is HELD or RAW, with the
lock on, and on a full list that does not hold the mark. -/
def Obligations.RegisteredPressesAct : Prop :=
  (∀ (s : State) (prev next mark seek call : Bool) (keys : Vector Debouncer 5), s.resetPin = false →
    Sampled s.nav.keys #v[prev, next, mark, seek, call] keys →
    ∃ after : Fin 6 → State, after 0 = { s with nav := { s.nav with keys := keys } } ∧
      (∀ j : Fin 5,
        (s.nav.keys[j].Registers #v[prev, next, mark, seek, call][j] →
          ∃ base : State, (after j.castSucc).Presses j base (after j.succ)) ∧
        (¬ s.nav.keys[j].Registers #v[prev, next, mark, seek, call][j] → after j.succ = after j.castSucc)) ∧
      exec (.keySample prev next mark seek call) s = .next (after 5)) ∧
  ∀ (pages : List (BitVec 16)) (p : BitVec 16),
    (seekPick pages p = none ↔ pages = []) ∧
    ∀ q, seekPick pages p = some q → q ∈ pages ∧
      ((∃ x ∈ pages, p.toNat < x.toNat) →
        p.toNat < q.toNat ∧ ∀ x ∈ pages, p.toNat < x.toNat → q.toNat ≤ x.toNat) ∧
      ((∀ x ∈ pages, x.toNat ≤ p.toNat) → ∀ x ∈ pages, q.toNat ≤ x.toNat)

/-! ### The page image -/

/-- R59, R60, R62, R98 to R104: what a line is composed from. `bit` is the place in a cell byte of the dot at a pin. On the
status line stand the text, the indicator, and the number sign and digits of the shown page; on a line of a SHOWN TEXT
entry the frame's dots and those of the marks that cover the cell, a CURSOR's in the on phase or in a zone that is not
CLEAR; of a SHOWN RAW entry the frame's bits; and nothing when no entry is SHOWN. The mark pins are those of the cells that
a mark covers on a line of a SHOWN TEXT entry. -/
def Obligations.LinesAreComposed : Prop :=
  ∀ (s : State) (r : Fin 128) (c : Fin 80) (bit : Nat),
    bit = (if c.val % 2 = 0 then [0, 1, 2, 6] else [3, 4, 5, 7]).getD (r.val % 4) 0 →
    (lineOfRow r = 31 → s.comp.statusOn = true →
      s.composeMarkPins (lineOfRow r) = 0 ∧
      (∀ h : c.val / 2 < 30, (s.composeRow r).getLsbD c.val = s.comp.statusText[c.val / 2].getLsbD bit) ∧
      (c.val / 2 = 30 → (s.composeRow r).getLsbD c.val =
        (if s.nav.cond = .settled then s.comp.glyphs.settled else s.comp.glyphs.waiting).getLsbD bit) ∧
      (c.val / 2 = 31 ∨ 38 ≤ c.val / 2 → (s.composeRow r).getLsbD c.val = false) ∧
      (32 ≤ c.val / 2 → s.dir.shownEntry = none → (s.composeRow r).getLsbD c.val = false) ∧
      ∀ (i : Fin 48) (k : Key), s.dir.shownEntry = some i → s.dir.entries[i].key = some k →
        (c.val / 2 = 32 → (s.composeRow r).getLsbD c.val = s.comp.glyphs.numberSign.getLsbD bit) ∧
        ∀ digits : List (Fin 10), digits.foldl (fun n d => 10 * n + d.val) 0 = k.page.toNat →
          (digits = [0] ∨ ∃ d ∈ digits.head?, d ≠ 0) →
          ∀ j, j < 5 → c.val / 2 = 33 + j → (s.composeRow r).getLsbD c.val =
            ((digits[j]?.map fun d => s.comp.glyphs.digits[d]).getD 0).getLsbD bit) ∧
    (¬ (lineOfRow r = 31 ∧ s.comp.statusOn = true) →
      (s.dir.shownEntry = none → (s.composeRow r).getLsbD c.val = false ∧ s.composeMarkPins (lineOfRow r) = 0) ∧
      ∀ i : Fin 48, s.dir.shownEntry = some i →
        (s.dir.entries[i].kind = .raw →
          (s.composeRow r).getLsbD c.val = (s.dir.frameByte i (10 * r.val + c.val / 8)).getLsbD (c.val % 8) ∧
          s.composeMarkPins (lineOfRow r) = 0) ∧
        (s.dir.entries[i].kind = .text →
          ((s.composeRow r).getLsbD c.val = true ↔
            (s.dir.frameByte i (40 * (r.val / 4) + c.val / 2)).getLsbD bit = true ∨
            ∃ m ∈ s.dir.entries[i].marks, m.line = lineOfRow r ∧ m.first ≤ c.val / 2 ∧
              c.val / 2 < m.first + m.length ∧
              ((bit = 6 ∧ (m.cls = .highlight ∨ m.cls = .bookmark)) ∨
                (bit = 7 ∧ (m.cls = .highlight ∨ m.cls = .find)) ∨
                (6 ≤ bit ∧ m.cls = .cursor ∧
                  (s.comp.blinkOn = true ∨ s.touch.zones[zoneOfPin r c].state ≠ .clear)))) ∧
          ((s.composeMarkPins (lineOfRow r)).getLsbD c.val = true ↔
            ∃ m ∈ s.dir.entries[i].marks, m.line = lineOfRow r ∧ m.first ≤ c.val / 2 ∧
              c.val / 2 < m.first + m.length)))

/-- R97, R109, R110: to compose lines again is to give their targets and mark pins the values that the inputs as they stand
compose, and no others; the attempt count of every pin whose target has changed becomes 0, a drive plan that waits on a
row with such a pin is formed again, and the Row Calendar is woken. Without a changed target neither is told. The
model's own: the lines of one trigger are composed as one whole (log entry 9), and the Planner finishes its work before the
calendar is woken (log entry 22). -/
def Obligations.RecompositionMovesTargets : Prop :=
  ∀ (s : State) (lines : List (Fin 32)), storeWf 0 s.pins.attempts = true → ∃ u : State,
    u = { s with
      comp := { s.comp with target := u.comp.target, markPins := u.comp.markPins }
      pins := { s.pins with attempts := u.pins.attempts } } ∧
    (∀ r : Fin 128, u.comp.target[r] = if lineOfRow r ∈ lines then s.composeRow r else s.comp.target[r]) ∧
    (∀ l : Fin 32, u.comp.markPins[l] = if l ∈ lines then s.composeMarkPins l else s.comp.markPins[l]) ∧
    (∀ (r : Fin 128) (c : Fin 80), u.pins.attempt r c =
      if u.comp.target[r].getLsbD c.val = s.comp.target[r].getLsbD c.val then s.pins.attempt r c else 0) ∧
    ((∀ r : Fin 128, u.comp.target[r] = s.comp.target[r]) → s.recompose lines = u) ∧
    ((∃ r : Fin 128, u.comp.target[r] ≠ s.comp.target[r]) →
      s.recompose lines = (u.reform fun r => decide (u.comp.target[r] ≠ s.comp.target[r])).wake)

/-- R105 to R108: SET STATUS replaces its three settings and sets the blink timer by its table, SET GLYPHS replaces the
13 patterns, and the expiry of the blink timer flips the phase. After a change of phase every line with a CURSOR cell
in a CLEAR zone is composed again, and no other; line 31 is composed again as the rules say, and the pin path follows.
The model's own: the lines of a change of phase are composed as one whole (log entry 9), and an expiry with the timer stopped
changes nothing (log entry 2). -/
def Obligations.StatusLineAndBlink : Prop :=
  ∀ (s : State) (b : CommandBody) (tag : Byte),
    (∀ (on : Bool) (time : Nat) (text : Vector Byte 30),
      b = frameOf tag (putBool on :: putNat16 time ++ text.toList) → s.Accepts 0x40 b →
      (time = 0 ∨ (200 ≤ time ∧ time ≤ 2000 ∧ time % 100 = 0)) →
      ∃ t u : State,
        t = { s with comp := { s.comp with
          statusOn := on
          statusText := text
          blinkTime := time
          blinkTimer := if time = 0 then none
            else if time = s.comp.blinkTime then s.comp.blinkTimer else some time
          blinkOn := s.comp.blinkOn || decide (time = 0) } } ∧
        PinPath t u ∧
        (s.comp.statusOn = true ∨ on = true → ∀ r : Fin 128, 124 ≤ r.val → u.comp.target[r] = u.composeRow r) ∧
        (∀ l, t.Blinks l → s.comp.blinkOn = false → time = 0 →
          ∀ r : Fin 128, lineOfRow r = l → u.comp.target[r] = u.composeRow r) ∧
        (∀ (lines : List (Fin 32)) (w : State), (∀ l, l ∈ lines ↔ t.Blinks l) →
          w = (if s.comp.blinkOn = true ∨ time ≠ 0 then t else t.recompose lines) →
          u = if s.comp.statusOn = true ∨ on = true then w.recompose [31] else w) ∧
        (s.comp.statusOn = false → on = false → (s.comp.blinkOn = true ∨ time ≠ 0) → u = t) ∧
        exec (.setStatus b) s = .next (u.answer 0x40 tag .ok [])) ∧
    (∀ (on : Byte) (time : BitVec 16) (text : List Byte), b = frameOf tag (on :: put16 time ++ text) →
      text.length = 30 → s.Accepts 0x40 b →
      (2 ≤ on.toNat ∨ ¬ (time.toNat = 0 ∨ (200 ≤ time.toNat ∧ time.toNat ≤ 2000 ∧ time.toNat % 100 = 0))) →
      exec (.setStatus b) s = .next (s.answer 0x40 tag .badArgument [])) ∧
    (∀ g : Glyphs, b = frameOf tag (g.numberSign :: g.digits.toList ++ [g.settled, g.waiting]) → s.Accepts 0x41 b →
      ∃ t u : State, t = { s with comp := { s.comp with glyphs := g } } ∧ PinPath t u ∧
        (s.comp.statusOn = true → u = t.recompose [31] ∧
          ∀ r : Fin 128, 124 ≤ r.val → u.comp.target[r] = u.composeRow r) ∧
        (s.comp.statusOn = false → u = t) ∧
        exec (.setGlyphs b) s = .next (u.answer 0x41 tag .ok [])) ∧
    (s.comp.blinkTimer = none → exec .blinkTimerExpiry s = .next s) ∧
    (s.comp.blinkTimer ≠ none → s.resetPin = false →
      ∃ t u : State, t = { s with comp := { s.comp with blinkOn := !s.comp.blinkOn } } ∧ PinPath t u ∧
        (∀ l, t.Blinks l → ∀ r : Fin 128, lineOfRow r = l → u.comp.target[r] = u.composeRow r) ∧
        (∀ lines : List (Fin 32), (∀ l, l ∈ lines ↔ t.Blinks l) → u = t.recompose lines) ∧
        ((∀ l, ¬ t.Blinks l) → u = t) ∧
        exec .blinkTimerExpiry s = .next u)

/-! ### The drive and the Row Calendar -/

/-- R162 to R164: PAUSE DRIVE sets the hold flag, withdraws a plan that waits and leaves a stroke in flight; RESUME
DRIVE clears it and takes the work up again where a pause left it; SURVEY makes every row unknown and, unless the
scheduler is held or a stroke is in flight, asks for a survey of row 0. That the start of a survey marks a line visit that
is kept as one with a stroke is the model's reading (log entry 12). -/
def Obligations.HoldAndSurvey : Prop :=
  ∀ (s : State) (b : CommandBody) (tag : Byte), b = frameOf tag [] →
    (s.Accepts 0x51 b →
      ((s.cal.sched = .surveying ∨ s.cal.sched = .driving) → (∀ p, s.drive.cond ≠ .inFlight p) →
        exec (.pauseDrive b) s = .next ({ s with
          drive := { s.drive with cond := .noPlan }
          cal := { s.cal with hold := true, sched := .paused } }.answer 0x51 tag .ok [])) ∧
      (s.cal.sched = .idle → exec (.pauseDrive b) s =
        .next ({ s with cal := { s.cal with hold := true, sched := .paused } }.answer 0x51 tag .ok [])) ∧
      ((s.cal.sched = .paused ∨ s.cal.sched = .supplyLow ∨
          ((s.cal.sched = .surveying ∨ s.cal.sched = .driving) ∧ ∃ p, s.drive.cond = .inFlight p)) →
        exec (.pauseDrive b) s =
          .next ({ s with cal := { s.cal with hold := true } }.answer 0x51 tag .ok []))) ∧
    (s.Accepts 0x52 b →
      (∀ r, s.cal.sched = .paused → LeastIndex (fun r : Fin 128 => s.pins.known[r] = false) r →
        exec (.resumeDrive b) s = .next (({ s with
          cal := { s.cal with hold := false, sched := .surveying } }.surveys r).answer 0x52 tag .ok [])) ∧
      (((s.cal.sched = .paused ∧ ∀ r : Fin 128, s.pins.known[r] = true) ∨ s.cal.sched = .idle) →
        ∃ t u : State, t = { s with cal := { s.cal with hold := false, sched := .driving, quiet := [] } } ∧
          u = t.driveOn ∧ PinPath t u ∧ exec (.resumeDrive b) s = .next (u.answer 0x52 tag .ok [])) ∧
      ((s.cal.sched = .surveying ∨ s.cal.sched = .driving ∨ s.cal.sched = .supplyLow) →
        exec (.resumeDrive b) s =
          .next ({ s with cal := { s.cal with hold := false } }.answer 0x52 tag .ok []))) ∧
    (s.Accepts 0x53 b →
      ∀ t : State, t = { s with pins := { s.pins with known := Vector.replicate 128 false } } →
      ((s.cal.sched = .surveying ∨ s.cal.sched = .paused ∨ s.cal.sched = .supplyLow) →
        exec (.survey b) s = .next (t.answer 0x53 tag .ok [])) ∧
      (∀ p, s.cal.sched = .driving → s.drive.cond = .inFlight p → exec (.survey b) s =
        .next ({ t with cal := { s.cal with sched := .surveying } }.answer 0x53 tag .ok [])) ∧
      ((s.cal.sched = .idle ∨ (s.cal.sched = .driving ∧ ∀ p, s.drive.cond ≠ .inFlight p)) →
        exec (.survey b) s =
          .next (({ t with cal := { s.cal with sched := .surveying } }.surveys 0).answer 0x53 tag .ok [])))

/-- R140, R141: a unit that arrives adds 1 to the level, up to 2,000, and starts the waiting plan whose cost it reaches;
while the supply is low no unit comes. A plan whose cost the level has reached starts. At the start the cost is drawn
and the drive is IN_FLIGHT. The model's own: STROKE_START as a row by itself (log entry 8), the rows that change nothing
where nothing arrives or starts (log entry 2), and that the start of a survey marks a kept line visit (log entry 12). -/
def Obligations.ChargeStartsStrokes : Prop :=
  ∀ s : State, s.resetPin = false →
    (s.drive.supply = .low → exec .refillUnitArrival s = .next s) ∧
    (s.drive.supply = .ok → ∀ level, level = min 2000 (s.drive.level + 1) →
      (∀ p, s.drive.cond = .waitCharge p → p.cost ≤ level → exec .refillUnitArrival s = .next { s with
        drive := { s.drive with cond := .inFlight p, level := level - p.cost }
        cal := s.cal.strokeStarted p.kind }) ∧
      ((∀ p, s.drive.cond = .waitCharge p → level < p.cost) →
        exec .refillUnitArrival s = .next { s with drive := { s.drive with level := level } })) ∧
    (∀ p, s.drive.cond = .waitCharge p → p.cost ≤ s.drive.level → exec .strokeStart s = .next { s with
      drive := { s.drive with cond := .inFlight p, level := s.drive.level - p.cost }
      cal := s.cal.strokeStarted p.kind }) ∧
    ((∀ p, s.drive.cond = .waitCharge p → s.drive.level < p.cost) → exec .strokeStart s = .next s)

/-- R62, R116, R134 to R139, R141, R142, R172: which pins a drive plan moves, with which pulse and at what cost, and what
asking for a drive stroke or forming a waiting plan again leads to. The moves stand in ascending column order. A plan
moves the strokable candidates of each bank from its lowest column up to BANK_CAP, and of those above them the mark pins,
up to MARK_EXTRA; a pin in an EXPIRED zone is moved by SOFT, one without a failed attempt by FIRM, any other by BOOST,
toward its target. The TOUCHED zones of the row that hold deferred candidates have their stopped hold timers started.
Without a move the drive holds no plan; otherwise the plan starts when the level has reached its cost, and waits until
then. A waiting drive plan of a named row is replaced whole, and without a move the Row Calendar is told that the row has
nothing to do. -/
def Obligations.PlansAreFormed : Prop :=
  ∀ (s : State) (r : Fin 128) (able : Fin 80 → Bool) (mark : Fin 80 → Bool) (moves : List Move),
    (∀ c, able c = true ↔ s.Strokable r c) →
    (∀ c, mark c = true ↔ r.val % 4 = 3 ∧ s.comp.markPins[lineOfRow r].getLsbD c.val = true) →
    moves = s.planMoves r →
    (moves.map Move.col).Pairwise (· < ·) ∧
    (∀ c, (∃ m ∈ moves, m.col = c) ↔ able c = true ∧
      (bankBelow able c < s.drive.bankCap ∨ (mark c = true ∧
        bankBelow (fun j => able j && mark j && decide (s.drive.bankCap ≤ bankBelow able j)) c < s.drive.markExtra))) ∧
    (∀ m ∈ moves, m.up = s.comp.target[r].getLsbD m.col.val ∧
      m.pulse = (if s.touch.zones[zoneOfPin r m.col].state = .expired then Pulse.soft
        else if s.pins.attempt r m.col = 0 then .firm else .boost)) ∧
    planCost moves = 10 + (moves.map fun m => match m.pulse, m.up with
      | .firm, true => 8 | .firm, false => 5 | .boost, true => 14 | .boost, false => 9
      | .soft, true => 4 | .soft, false => 3).sum ∧
    (∃ t : State, t = { s with touch := { s.touch with zones := t.touch.zones } } ∧
      (∀ z : Fin 16, t.touch.zones[z] =
        if s.touch.zones[z].state = .touched ∧ s.touch.zones[z].hold = none ∧
            ∃ c : Fin 80, zoneOfPin r c = z ∧ s.Deferred r c then
          { s.touch.zones[z] with hold := some s.touch.holdLimit } else s.touch.zones[z]) ∧
      (moves = [] → s.askDrive r = ({ t with drive := { s.drive with cond := .noPlan } }, false)) ∧
      (moves ≠ [] → ∀ p : Plan, p = ⟨.drive, r, moves, planCost moves, s.drive.strokeTime⟩ →
        s.askDrive r = (if p.cost ≤ s.drive.level then
            { t with drive := s.drive.fly p, cal := s.cal.strokeStarted .drive }
          else { t with drive := { s.drive with cond := .waitCharge p } }, true))) ∧
    ∀ rows : Fin 128 → Bool,
      (∀ p, s.drive.cond = .waitCharge p → p.kind = .drive → p.row = r → rows r = true →
        s.reform rows = if moves = [] then (s.askDrive r).1.rowNothing else (s.askDrive r).1) ∧
      ((∀ p, s.drive.cond = .waitCharge p → p.kind = .drive → rows p.row = false) → s.reform rows = s)

/-- R155, R158 to R160: the order of visits. A visit takes the line of the current slot's cursor, which goes on to the next
line of the slot's range, the last line being followed by the first, and the slot has one visit less left. A row with no
move is done, and one with its fourth stroke; after its fourth row the visit ends, with no visits left the turn passes to
the next slot in list order, and the line of a quiet visit joins the quiet set. The visit that fills the set brings the
scheduler to IDLE with SETTLE, which counts the deferred and the stuck candidates of all rows. The scheduler goes on from
row to row until it holds a plan or is IDLE; a waking empties the quiet set of a DRIVING scheduler, makes an IDLE one
DRIVING, and does nothing in the other states. That all its moves of one event fall under the bound that makes the model's
function end rests on log entry 18. -/
def Obligations.VisitsFollowTheCalendar : Prop :=
  ∀ s : State, s.CalendarSound →
    (∀ c, s.cal.visit = none → s.cal.slots[s.cal.current]? = some c → ∃ next : Fin 32,
      next.val = (if c.cursor.val = (if c.follow then 4 * s.touch.band.val + 3 else c.last) then
        (if c.follow then 4 * s.touch.band.val else c.first) else c.cursor.val + 1) ∧
      s.calendarMove = ({ s with cal := { s.cal with
        slots := s.cal.slots.set s.cal.current { c with cursor := next }
        visitsLeft := s.cal.visitsLeft - 1
        visit := some ⟨c.cursor, 0, 0, false⟩ } }, true)) ∧
    (∀ v, s.cal.visit = some v → s.calendarMove =
      if s.planMoves (pinRow v.line v.row) = [] then (s.askDrive (pinRow v.line v.row)).1.rowDone v
      else ((s.askDrive (pinRow v.line v.row)).1, false)) ∧
    (∀ v : LineVisit,
      s.countStroke v = (if v.strokes < 3 then
        ({ s with cal := { s.cal with visit := some { v with strokes := v.strokes + 1 } } }, true) else s.rowDone v) ∧
      (v.row ≠ 3 → s.rowDone v =
        ({ s with cal := { s.cal with visit := some { v with row := v.row + 1, strokes := 0 } } }, true)) ∧
      (v.row = 3 → ∀ (quiet : List (Fin 32)) (t : State),
        quiet = (if v.started = true ∨ v.line ∈ s.cal.quiet then s.cal.quiet else s.cal.quiet ++ [v.line]) →
        t = { s with cal := { s.cal with
          visit := none
          quiet := quiet
          current := if s.cal.visitsLeft = 0 then (s.cal.current + 1) % s.cal.slots.length else s.cal.current
          visitsLeft := if s.cal.visitsLeft = 0 then
              ((s.cal.slots[(s.cal.current + 1) % s.cal.slots.length]?).map CalendarSlot.count).getD 1
            else s.cal.visitsLeft } } →
        ((v.started = true ∨ quiet.length < 32) → s.rowDone v = (t, true)) ∧
        (v.started = false → quiet.length = 32 → ∀ deferred stuck : Fin 128 → Fin 80 → Bool,
          (∀ r c, deferred r c = true ↔ s.Deferred r c) →
          (∀ r c, stuck r c = true ↔ s.pins.known[r] = true ∧
            s.comp.target[r].getLsbD c.val ≠ s.pins.confirmed[r].getLsbD c.val ∧
            ∃ f ∈ s.pins.faults, f.row = r ∧ f.col = c) →
          s.rowDone v = ({ t with cal := { t.cal with sched := .idle } }.post (.settle
            ((List.finRange 128).map fun r => (List.finRange 80).countP (deferred r)).sum
            ((List.finRange 128).map fun r => (List.finRange 80).countP (stuck r)).sum), false)))) ∧
    (s.cal.sched = .driving → s.Moves (State.runCalendar Config.calendarFuel s) ∧
      State.runCalendar Config.calendarFuel s = State.goOn (s, true)) ∧
    (∀ t, State.goOn (t, false) = t) ∧
    (∀ t : State, s.Moves t → t.cal.sched = .idle ∨ t.drive.cond ≠ .noPlan) ∧
    s.driveOn = State.runCalendar Config.calendarFuel { s with cal := { s.cal with sched := .driving, quiet := [] } } ∧
    (s.cal.sched = .driving → s.wake = { s with cal := { s.cal with quiet := [] } }) ∧
    (s.cal.sched = .idle → s.wake = s.driveOn) ∧
    (s.cal.sched ≠ .driving → s.cal.sched ≠ .idle → s.wake = s ∧ s.rowNothing = s) ∧
    (∀ v, s.cal.sched = .driving → s.cal.visit = some v → s.rowNothing = State.goOn (s.rowDone v)) ∧
    (s.cal.sched = .driving → s.cal.visit = none → s.rowNothing = State.goOn (s, true))

/-- R146, R147, R165: a fall of the supply discards a stroke in flight, whose row becomes unknown, withdraws a plan, empties
the reservoir, puts the scheduler into SUPPLY_LOW and posts DRIVE; a rise lets the scheduler take its work up again, DRIVE
being posted with the state it enters. A fall while the supply is low and a rise while it is good change nothing of a
block (log entry 2), and neither does either while the RESET pin is asserted (log entry 5), which are the model's. -/
def Obligations.SupplyFallsAndRises : Prop :=
  ∀ s : State,
    (s.resetPin = false → s.drive.supply = .ok → exec .supplyFall s = .next ({ s with
      supplyPin := .low
      pins := { s.pins with known := match s.drive.cond with
        | .inFlight p => s.pins.known.set p.row false
        | _ => s.pins.known }
      drive := { s.drive with cond := .noPlan, level := 0, supply := .low }
      cal := { s.cal with sched := .supplyLow } }.post (.drive .supplyLow .low))) ∧
    ((s.resetPin = true ∨ s.drive.supply = .low) → exec .supplyFall s = .next { s with supplyPin := .low }) ∧
    ((s.resetPin = true ∨ s.drive.supply = .ok) → exec .supplyRise s = .next { s with supplyPin := .ok }) ∧
    (s.resetPin = false → s.drive.supply = .low →
      ∀ t : State, t = { s with supplyPin := .ok, drive := { s.drive with supply := .ok } } →
      (s.cal.hold = true → exec .supplyRise s =
        .next ({ t with cal := { s.cal with sched := .paused } }.post (.drive .paused .ok))) ∧
      (∀ r, s.cal.hold = false → LeastIndex (fun r : Fin 128 => s.pins.known[r] = false) r →
        exec .supplyRise s =
          .next (({ t with cal := { s.cal with sched := .surveying } }.post (.drive .surveying .ok)).surveys r)) ∧
      (s.cal.hold = false → (∀ r : Fin 128, s.pins.known[r] = true) →
        ∃ u w : State, u = { t with cal := { s.cal with sched := .driving } }.post (.drive .driving .ok) ∧
          w = u.driveOn ∧ PinPath { u with cal := { u.cal with quiet := [] } } w ∧ exec .supplyRise s = .next w))

/-! ### The pin field -/

/-- R129, R130: CLEAR FAULTS removes the records it selects, keeps the others in their order, and makes the attempt counts
of their pins 0; a selection that finds no record changes nothing. When a record was removed a drive plan that waits on a
row which lost one is formed again, and the Row Calendar is woken; that the Planner finishes its work before is the model's
(log entry 22). -/
def Obligations.ClearFaultsRemovesItsRecords : Prop :=
  ∀ (s : State) (b : CommandBody) (tag sel row col : Byte) (chosen : FaultRecord → Bool)
    (gone kept : List FaultRecord), b = frameOf tag [sel, row, col] → s.Accepts 0x59 b →
    ((2 ≤ sel.toNat ∨ (sel = 0 ∧ (128 ≤ row.toNat ∨ 80 ≤ col.toNat))) →
      exec (.clearFaults b) s = .next (s.answer 0x59 tag .badArgument [])) ∧
    (storeWf 0 s.pins.attempts = true →
      ((sel = 1 ∧ ∀ f, chosen f = true) ∨ (sel = 0 ∧ row.toNat < 128 ∧ col.toNat < 80 ∧
        ∀ f, chosen f = true ↔ f.row.val = row.toNat ∧ f.col.val = col.toNat)) →
      gone = s.pins.faults.filter chosen → kept = s.pins.faults.filter (fun f => !chosen f) →
      ∃ t u : State, t = { s with pins := { s.pins with faults := kept, attempts := t.pins.attempts } } ∧
        PinPath t u ∧ (gone = [] → u = s) ∧
        (∀ (r : Fin 128) (c : Fin 80), t.pins.attempt r c =
          if ∃ f ∈ gone, f.row = r ∧ f.col = c then 0 else s.pins.attempt r c) ∧
        u.pins.attempts = t.pins.attempts ∧
        (gone ≠ [] → u = (t.reform fun r => decide (∃ f ∈ gone, f.row = r)).wake) ∧
        exec (.clearFaults b) s = .next (u.answer 0x59 tag .ok [put8 gone.length, put8 kept.length]))

/-- R115, R118, R145, R161 to R163: when a survey stroke completes, the row's confirmed positions are those sensed and the
row is known; attempt counts, the fault table and the target image stay, the candidates of the row are the pins read away
from their targets, and no notice but the scheduler's own DRIVE and SETTLE is posted. The drive holds no plan any more, and
the Row Calendar is told of the completion: the lowest unknown row is surveyed next, or the survey is complete. The model's
own: a completion with no stroke in flight changes nothing (log entry 2), and the line visit moves on at a completion in
DRIVING under the hold flag (log entry 13). -/
def Obligations.SurveyReadsItsRow : Prop :=
  ∀ (s : State) (sensed : PinRow), s.resetPin = false →
    ((∀ p, s.drive.cond ≠ .inFlight p) → exec (.strokeCompletion sensed) s = .next s) ∧
    ∀ p : Plan, s.drive.cond = .inFlight p → p.kind = .survey →
    ∃ t, exec (.strokeCompletion sensed) s = .next t ∧
      t.pins = { s.pins with
        confirmed := s.pins.confirmed.set p.row sensed, known := s.pins.known.set p.row true } ∧
      t.comp = s.comp ∧
      (∀ c : Fin 80, (t.candidates p.row).getLsbD c.val = true ↔
        sensed.getLsbD c.val ≠ s.comp.target[p.row].getLsbD c.val) ∧
      t.link.notices.filter (fun n => n.kindCode != 8 && n.kindCode != 9) =
        s.link.notices.filter (fun n => n.kindCode != 8 && n.kindCode != 9) ∧
      ({ s with pins := t.pins, drive := { s.drive with cond := .noPlan } } : State).TellsCompleted t

/-- R119 to R121, R125, R126, R145, R158, R162, R163: when a drive stroke completes, the row's confirmed positions are
those sensed and the row is known. A moved pin read at its planned position has count 0; a FIRM or BOOST failure adds 1,
and the third in a row makes the count 0 and finds the pin stuck; every other count stays. The pins found stuck are
recorded in ascending column order while the table has room, and one PIN_FAULT is posted for them. Then the drive holds no
plan, and the Row Calendar is told of the completion: the row of the line visit is asked again, or the visit goes on; that
it does so under the hold flag, with no request following, is the model's reading (log entry 13). -/
def Obligations.DriveStrokesAreJudged : Prop :=
  ∀ (s : State) (p : Plan) (sensed : PinRow) (failed stuck : List Move), s.resetPin = false →
    s.drive.cond = .inFlight p → p.kind = .drive → (p.moves.map Move.col).Pairwise (· < ·) →
    storeWf 0 s.pins.attempts = true → s.pins.faults.length ≤ 64 →
    failed = p.moves.filter (fun m => decide (sensed.getLsbD m.col.val ≠ m.up ∧ m.pulse ≠ .soft)) →
    stuck = failed.filter (fun m => decide (2 ≤ s.pins.attempt p.row m.col)) →
    ∃ t, exec (.strokeCompletion sensed) s = .next t ∧
      t.pins.confirmed = s.pins.confirmed.set p.row sensed ∧ t.pins.known = s.pins.known.set p.row true ∧
      (∀ (r : Fin 128) (c : Fin 80), t.pins.attempt r c =
        if r = p.row ∧ (∃ m ∈ p.moves, m.col = c ∧ sensed.getLsbD c.val = m.up) then 0
        else if r = p.row ∧ (∃ m ∈ failed, m.col = c) then
          (if 2 ≤ s.pins.attempt r c then 0 else s.pins.attempt r c + 1)
        else s.pins.attempt r c) ∧
      t.pins.faults = s.pins.faults ++
        (stuck.map fun m => (⟨p.row, m.col, sensed.getLsbD m.col.val⟩ : FaultRecord)).take
          (64 - s.pins.faults.length) ∧
      t.link.notices.filter (fun n => n.kindCode != 8 && n.kindCode != 9) =
        (if stuck = [] then s
          else s.post (.pinFault stuck.length (decide (64 < s.pins.faults.length + stuck.length)))
          ).link.notices.filter (fun n => n.kindCode != 8 && n.kindCode != 9) ∧
      ({ (if stuck = [] then s
          else s.post (.pinFault stuck.length (decide (64 < s.pins.faults.length + stuck.length)))) with
        pins := t.pins, drive := { s.drive with cond := .noPlan } } : State).TellsCompleted t

/-! ### Touch zones -/

/-- R113, R167 to R171, R173: what a reading does to its zone. The first sets the baseline; later ones form the delta, track the
baseline while the zone is CLEAR and the delta below T_off, and count toward the other state; the third in a row changes
the state and is told on: the zone's CURSOR lines are composed again, a drive plan that waits on a row of the band is formed
again, the Row Calendar is woken and TOUCH is posted. The hold timer's expiry makes a TOUCHED zone EXPIRED. The model's own:
the zone's CURSOR lines are composed as one whole (log entry 9), each block that is told finishes its work before the next is
told (log entry 22), the follow cursor moves with the reading band after the waking (log entry 11), and an expiry with the
timer stopped changes nothing (log entry 2). First, which pins, cells and rows lie in which zone and band. -/
def Obligations.ZonesFollowTheirReadings : Prop :=
  (∀ (r : Fin 128) (c : Fin 80), (zoneOfPin r c).val = 2 * (r.val / 16) + c.val / 40 ∧
    (bandOfRow r).val = r.val / 16) ∧
  (∀ (l : Fin 32) (c : Nat), c < 40 → (zoneOfCell l c).val = 2 * (l.val / 4) + c / 20) ∧
  (∀ z : Fin 16, (bandOfZone z).val = z.val / 2) ∧ (∀ b : Fin 8, (firstLineOfBand b).val = 4 * b.val) ∧
  ∀ (s : State) (z : Fin 16) (m : BitVec 12) (x : Zone), s.resetPin = false → x = s.touch.zones[z] →
    (x.baseline = none → exec (.zoneReading z m) s = .next { s with touch := { s.touch with
      zones := s.touch.zones.set z { x with baseline := some m.toNat } } }) ∧
    (∀ (base : Nat) (delta : Int) (y : Zone), x.baseline = some base → delta = (m.toNat : Int) - base →
      y.baseline = some (if x.state = .clear ∧ delta < s.touch.tOff then ((base : Int) + delta.tdiv 16).toNat
        else base) →
      y = { x with baseline := y.baseline } →
      (¬ (if x.state = .clear then (s.touch.tOn : Int) ≤ delta else delta < s.touch.tOff) →
        exec (.zoneReading z m) s = .next { s with touch := { s.touch with
          zones := s.touch.zones.set z { y with run := 0 } } }) ∧
      ((if x.state = .clear then (s.touch.tOn : Int) ≤ delta else delta < s.touch.tOff) →
        (x.run < 2 → exec (.zoneReading z m) s = .next { s with touch := { s.touch with
          zones := s.touch.zones.set z { y with run := x.run + 1 } } }) ∧
        (2 ≤ x.run → x.state = .clear → ∃ t, exec (.zoneReading z m) s = .next t ∧
          s.ZoneChanges z { y with state := .touched, run := 0 } (bandOfZone z) t) ∧
        (2 ≤ x.run → x.state ≠ .clear → ∃ t, exec (.zoneReading z m) s = .next t ∧
          s.ZoneChanges z { y with state := .clear, run := 0, hold := none } s.touch.band t))) ∧
    (x.hold ≠ none → x.state = .touched → ∃ t, exec (.holdTimerExpiry z) s = .next t ∧
      s.ZoneChanges z { x with state := .expired, hold := none } s.touch.band t) ∧
    ((x.hold = none ∨ x.state ≠ .touched) → exec (.holdTimerExpiry z) s = .next s)

/-! ### Resets -/

/-- R21, R48, R81, R96, R112, R132, R150, R153, R166, R179, R189, R190: each reset puts every block into its reset values, with
the supply as the comparator reads; a power-on reset alone empties the fault table, and the RESET command leaves its
response. Asserting the RESET pin changes nothing but its level. Then what State.reset, the part after a power-on reset
with the supply good, holds; and every invariant of the part holds in it. The model's own: that no pin is asserted and
the supply is good at State.reset, and that a power-on reset and a PIN_RESET leave the levels as they do (log entries 4
and 5); and that the survey of row 0 is asked for in the reset's event and waits (log entry 21). The two lines that a
follow slot does not use are left open (log entry 27). -/
def Obligations.ResetsPutTheResetValues : Prop :=
  (∀ (s : State) (b : CommandBody) (tag : Byte),
     exec .powerOnReset s = .next (s.afterReset .powerOn) ∧
     exec .pinReset s = .next { s.afterReset .pin with resetPin := false } ∧
     exec .resetPinAsserted s = .next { s with resetPin := true } ∧
     (b = frameOf tag [] → s.Accepts 0x7F b →
       exec (.resetCommand b) s = .next ((s.afterReset .command).answer 0x7F tag .ok []))) ∧
  State.reset.Safe ∧
  State.reset.pending = [] ∧ State.reset.resetPin = false ∧ State.reset.supplyPin = .ok ∧
  State.reset.link.buffer = none ∧ State.reset.link.response = none ∧ State.reset.link.notices = [] ∧
  State.reset.link.mask = 0 ∧ State.reset.link.cause = .powerOn ∧
  (∀ i : Fin 48, State.reset.dir.entries[i] =
    { state := .free, key := none, kind := .text, revision := 0, pinned := false, group := 0, held := false,
      marks := [], slot := none }) ∧
  (∀ (i : Fin 48) (o : Nat), State.reset.dir.frameByte i o = 0) ∧ State.reset.dir.queue = [] ∧
  (∀ j : Fin 2, State.reset.load.slots[j] = none) ∧ State.reset.load.escape = 0xFF ∧
  SpellsCodes [0x0D, 1, 0, 0x0C, 1, 1, 0x12, 1, 2, 0x13, 1, 3, 0x1C, 1, 4, 0x1D, 3, 5, 0, 0, 0, 0, 0, 0]
    State.reset.load.codes ∧
  State.reset.sweep = none ∧
  State.reset.nav =
    { document := 0, shownKey := none, wanted := none, cond := .settled, lock := false, missKey := none,
      missLocked := false, keys := State.reset.nav.keys } ∧
  (∀ j : Fin 5, State.reset.nav.keys[j] = { pressed := false, run := 0 }) ∧
  State.reset.comp.statusOn = true ∧ (∀ c : Fin 30, State.reset.comp.statusText[c] = 0) ∧
  State.reset.comp.glyphs =
    { numberSign := 0x3C, digits := State.reset.comp.glyphs.digits, settled := 0, waiting := 0xC0 } ∧
  State.reset.comp.glyphs.digits.toList = [0x1A, 0x01, 0x03, 0x09, 0x19, 0x11, 0x0B, 0x1B, 0x13, 0x0A] ∧
  State.reset.comp.blinkTime = 600 ∧ State.reset.comp.blinkTimer = some 600 ∧ State.reset.comp.blinkOn = true ∧
  (∀ r : Fin 128, State.reset.comp.target[r] = 0 ∧ State.reset.pins.known[r] = false ∧
    State.reset.pins.confirmed[r] = 0) ∧ (∀ l : Fin 32, State.reset.comp.markPins[l] = 0) ∧
  State.reset.pins.faults = [] ∧ (∀ (r : Fin 128) (c : Fin 80), State.reset.pins.attempt r c = 0) ∧
  State.reset.drive =
    { cond := .waitCharge ⟨.survey, 0, [], 10, 12⟩, level := 0, supply := .ok, strokeTime := 12, refillRate := 60,
      bankCap := 12, markExtra := 2 } ∧
  State.reset.cal.sched = .surveying ∧ State.reset.cal.hold = false ∧ State.reset.cal.current = 0 ∧
  State.reset.cal.visitsLeft = 1 ∧ State.reset.cal.visit = none ∧ State.reset.cal.quiet = [] ∧
  (∃ unused1 unused2 : Nat, State.reset.cal.slots =
    [{ first := unused1, last := unused2, count := 1, follow := true, cursor := 0 },
      { first := 0, last := 31, count := 2, follow := false, cursor := 0 }]) ∧
  (∀ z : Fin 16, State.reset.touch.zones[z] = { state := .clear, baseline := none, run := 0, hold := none }) ∧
  State.reset.touch.band = 0 ∧ State.reset.touch.tOn = 120 ∧ State.reset.touch.tOff = 60 ∧
  State.reset.touch.holdLimit = 6

/-! ### Invariants that every step keeps -/

/-- R1 to R3, R7, R8, R10, R22, R23, R93: the entries, the load slots, the reclaim queue, the HELD flags and the shown key
go on agreeing; and each HELD entry of a sweep counts in at most one of changed, skipped shown and collisions, whose
sum never exceeds matched. -/
def Obligations.StepKeepsThePages : Prop :=
  ∀ s t : State, s.PagesAgree → step s = .next t →
    t.PagesAgree ∧ (s.SweepCountsSound → t.SweepCountsSound)

/-- R35, R36, R49, R50: mark lists and load records stay sound, and the stores of frames and attempt counts stay in their
canonical form and within their bounds. -/
def Obligations.StepKeepsMarksAndStores : Prop :=
  ∀ s t : State, s.PagesAgree → s.MarksSound → s.StoresCanonical → step s = .next t →
    t.MarksSound ∧ t.StoresCanonical

/-- R65, R66: a SETTLED navigation wants the shown key, and a waiting one wants a key that the directory does not offer,
for the reason its condition names. -/
def Obligations.StepKeepsNavigation : Prop :=
  ∀ s t : State, s.PagesAgree → s.NavigationAgrees → step s = .next t → t.NavigationAgrees

/-- R97, R109: the target image and the mark pins are always what composing every line from the inputs as they stand gives:
no event changes an input without recomposing the lines it reaches. -/
def Obligations.StepKeepsTheImage : Prop :=
  ∀ s t : State, s.PagesAgree → s.MarksSound → s.StoresCanonical → s.ImageComposed → step s = .next t →
    t.ImageComposed

/-- R117, R123, R137, R138, R140 to R142, R146, R148, R152: attempt counts stay at most 2, the fault table holds at most 64 pins
and none twice, the moves of a held plan stand in ascending column order, and a plan that waits holds only pins that may be
given a pulse as things stand. The level stays at most 2,000 and below the cost of a waiting plan; the supply, the
scheduler and the drive agree; the settings stay in their ranges. -/
def Obligations.StepKeepsPinsPlansAndTheDrive : Prop :=
  ∀ s t : State, step s = .next t → (s.PinsSound → t.PinsSound) ∧ (s.DriveSound → t.DriveSound)

/-- R153, R155, R157 to R159, R168, R170, R172, R173, R177, R186: the calendar stays one that SET CALENDAR accepts, with its
cursors in their ranges, and the zone records and touch settings stay in theirs. The notice queue never holds two notices
of the same kind and subject, and so never more than 10. -/
def Obligations.StepKeepsCalendarZonesAndNotices : Prop :=
  ∀ s t : State, step s = .next t →
    (s.CalendarSound → t.CalendarSound) ∧ (s.TouchSound → t.TouchSound) ∧
    (s.NoticesDistinct → t.NoticesDistinct ∧ t.link.notices.length ≤ 10)

/-- R123, R137: no drive pulse is given to a pin in a TOUCHED zone, to a pin of an unknown row or to a pin in the fault
table: every move of a drive stroke that starts in a step is at a pin that may be given a pulse in the state after it. -/
def Obligations.NoPulseWhereNoneMayBeGiven : Prop :=
  ∀ (s t : State) (p : Plan), s.PinsSound → step s = .next t → t.drive.cond = .inFlight p → p.kind = .drive →
    (s.drive.cond ≠ .inFlight p ∨
      ∃ sensed rest, s.pending = .strokeCompletion sensed :: rest ∧ s.resetPin = false) →
    ∀ m ∈ p.moves, t.MayPulse p.row m.col

/-- R4: the frame of a visible entry changes only by PATCH CELLS: in a step of any other row, an entry that is visible before
and after keeps every byte of its frame. -/
def Obligations.VisibleFramesChangeOnlyByPatch : Prop :=
  ∀ (s t : State) (c : Instr) (rest : List Instr), s.PagesAgree → s.MarksSound → s.StoresCanonical →
    s.pending = c :: rest → (∀ b, c ≠ .patchCells b) → step s = .next t →
    ∀ (i : Fin 48) (o : Nat), o < 1280 → s.dir.entries[i].visible = true → t.dir.entries[i].visible = true →
      t.dir.frameByte i o = s.dir.frameByte i o
end

