-- ==== Sys2Proof/Laws/State.lean ====
section
/-! SUPPORT. One lemma per field for each operation that replaces a block of the state. -/

namespace Sys2Proof.Machine

/-! ### setLink -/

@[simp] theorem State.setLink_pending (s : State) (x : Link) : (s.setLink x).pending = s.pending := rfl
@[simp] theorem State.setLink_resetPin (s : State) (x : Link) : (s.setLink x).resetPin = s.resetPin := rfl
@[simp] theorem State.setLink_supplyPin (s : State) (x : Link) : (s.setLink x).supplyPin = s.supplyPin := rfl
@[simp] theorem State.setLink_link (s : State) (x : Link) : (s.setLink x).link = x := rfl
@[simp] theorem State.setLink_dir (s : State) (x : Link) : (s.setLink x).dir = s.dir := rfl
@[simp] theorem State.setLink_load (s : State) (x : Link) : (s.setLink x).load = s.load := rfl
@[simp] theorem State.setLink_sweep (s : State) (x : Link) : (s.setLink x).sweep = s.sweep := rfl
@[simp] theorem State.setLink_nav (s : State) (x : Link) : (s.setLink x).nav = s.nav := rfl
@[simp] theorem State.setLink_comp (s : State) (x : Link) : (s.setLink x).comp = s.comp := rfl
@[simp] theorem State.setLink_pins (s : State) (x : Link) : (s.setLink x).pins = s.pins := rfl
@[simp] theorem State.setLink_drive (s : State) (x : Link) : (s.setLink x).drive = s.drive := rfl
@[simp] theorem State.setLink_cal (s : State) (x : Link) : (s.setLink x).cal = s.cal := rfl
@[simp] theorem State.setLink_touch (s : State) (x : Link) : (s.setLink x).touch = s.touch := rfl

/-! ### setDir -/

@[simp] theorem State.setDir_pending (s : State) (x : Directory) : (s.setDir x).pending = s.pending := rfl
@[simp] theorem State.setDir_resetPin (s : State) (x : Directory) : (s.setDir x).resetPin = s.resetPin := rfl
@[simp] theorem State.setDir_supplyPin (s : State) (x : Directory) : (s.setDir x).supplyPin = s.supplyPin := rfl
@[simp] theorem State.setDir_link (s : State) (x : Directory) : (s.setDir x).link = s.link := rfl
@[simp] theorem State.setDir_dir (s : State) (x : Directory) : (s.setDir x).dir = x := rfl
@[simp] theorem State.setDir_load (s : State) (x : Directory) : (s.setDir x).load = s.load := rfl
@[simp] theorem State.setDir_sweep (s : State) (x : Directory) : (s.setDir x).sweep = s.sweep := rfl
@[simp] theorem State.setDir_nav (s : State) (x : Directory) : (s.setDir x).nav = s.nav := rfl
@[simp] theorem State.setDir_comp (s : State) (x : Directory) : (s.setDir x).comp = s.comp := rfl
@[simp] theorem State.setDir_pins (s : State) (x : Directory) : (s.setDir x).pins = s.pins := rfl
@[simp] theorem State.setDir_drive (s : State) (x : Directory) : (s.setDir x).drive = s.drive := rfl
@[simp] theorem State.setDir_cal (s : State) (x : Directory) : (s.setDir x).cal = s.cal := rfl
@[simp] theorem State.setDir_touch (s : State) (x : Directory) : (s.setDir x).touch = s.touch := rfl

/-! ### setLoad -/

@[simp] theorem State.setLoad_pending (s : State) (x : Decoder) : (s.setLoad x).pending = s.pending := rfl
@[simp] theorem State.setLoad_resetPin (s : State) (x : Decoder) : (s.setLoad x).resetPin = s.resetPin := rfl
@[simp] theorem State.setLoad_supplyPin (s : State) (x : Decoder) : (s.setLoad x).supplyPin = s.supplyPin := rfl
@[simp] theorem State.setLoad_link (s : State) (x : Decoder) : (s.setLoad x).link = s.link := rfl
@[simp] theorem State.setLoad_dir (s : State) (x : Decoder) : (s.setLoad x).dir = s.dir := rfl
@[simp] theorem State.setLoad_load (s : State) (x : Decoder) : (s.setLoad x).load = x := rfl
@[simp] theorem State.setLoad_sweep (s : State) (x : Decoder) : (s.setLoad x).sweep = s.sweep := rfl
@[simp] theorem State.setLoad_nav (s : State) (x : Decoder) : (s.setLoad x).nav = s.nav := rfl
@[simp] theorem State.setLoad_comp (s : State) (x : Decoder) : (s.setLoad x).comp = s.comp := rfl
@[simp] theorem State.setLoad_pins (s : State) (x : Decoder) : (s.setLoad x).pins = s.pins := rfl
@[simp] theorem State.setLoad_drive (s : State) (x : Decoder) : (s.setLoad x).drive = s.drive := rfl
@[simp] theorem State.setLoad_cal (s : State) (x : Decoder) : (s.setLoad x).cal = s.cal := rfl
@[simp] theorem State.setLoad_touch (s : State) (x : Decoder) : (s.setLoad x).touch = s.touch := rfl

/-! ### setSweep -/

@[simp] theorem State.setSweep_pending (s : State) (x : Option SweepRun) : (s.setSweep x).pending = s.pending := rfl
@[simp] theorem State.setSweep_resetPin (s : State) (x : Option SweepRun) : (s.setSweep x).resetPin = s.resetPin := rfl
@[simp] theorem State.setSweep_supplyPin (s : State) (x : Option SweepRun) : (s.setSweep x).supplyPin = s.supplyPin := rfl
@[simp] theorem State.setSweep_link (s : State) (x : Option SweepRun) : (s.setSweep x).link = s.link := rfl
@[simp] theorem State.setSweep_dir (s : State) (x : Option SweepRun) : (s.setSweep x).dir = s.dir := rfl
@[simp] theorem State.setSweep_load (s : State) (x : Option SweepRun) : (s.setSweep x).load = s.load := rfl
@[simp] theorem State.setSweep_sweep (s : State) (x : Option SweepRun) : (s.setSweep x).sweep = x := rfl
@[simp] theorem State.setSweep_nav (s : State) (x : Option SweepRun) : (s.setSweep x).nav = s.nav := rfl
@[simp] theorem State.setSweep_comp (s : State) (x : Option SweepRun) : (s.setSweep x).comp = s.comp := rfl
@[simp] theorem State.setSweep_pins (s : State) (x : Option SweepRun) : (s.setSweep x).pins = s.pins := rfl
@[simp] theorem State.setSweep_drive (s : State) (x : Option SweepRun) : (s.setSweep x).drive = s.drive := rfl
@[simp] theorem State.setSweep_cal (s : State) (x : Option SweepRun) : (s.setSweep x).cal = s.cal := rfl
@[simp] theorem State.setSweep_touch (s : State) (x : Option SweepRun) : (s.setSweep x).touch = s.touch := rfl

/-! ### setNav -/

@[simp] theorem State.setNav_pending (s : State) (x : Navigation) : (s.setNav x).pending = s.pending := rfl
@[simp] theorem State.setNav_resetPin (s : State) (x : Navigation) : (s.setNav x).resetPin = s.resetPin := rfl
@[simp] theorem State.setNav_supplyPin (s : State) (x : Navigation) : (s.setNav x).supplyPin = s.supplyPin := rfl
@[simp] theorem State.setNav_link (s : State) (x : Navigation) : (s.setNav x).link = s.link := rfl
@[simp] theorem State.setNav_dir (s : State) (x : Navigation) : (s.setNav x).dir = s.dir := rfl
@[simp] theorem State.setNav_load (s : State) (x : Navigation) : (s.setNav x).load = s.load := rfl
@[simp] theorem State.setNav_sweep (s : State) (x : Navigation) : (s.setNav x).sweep = s.sweep := rfl
@[simp] theorem State.setNav_nav (s : State) (x : Navigation) : (s.setNav x).nav = x := rfl
@[simp] theorem State.setNav_comp (s : State) (x : Navigation) : (s.setNav x).comp = s.comp := rfl
@[simp] theorem State.setNav_pins (s : State) (x : Navigation) : (s.setNav x).pins = s.pins := rfl
@[simp] theorem State.setNav_drive (s : State) (x : Navigation) : (s.setNav x).drive = s.drive := rfl
@[simp] theorem State.setNav_cal (s : State) (x : Navigation) : (s.setNav x).cal = s.cal := rfl
@[simp] theorem State.setNav_touch (s : State) (x : Navigation) : (s.setNav x).touch = s.touch := rfl

/-! ### setComp -/

@[simp] theorem State.setComp_pending (s : State) (x : Compositor) : (s.setComp x).pending = s.pending := rfl
@[simp] theorem State.setComp_resetPin (s : State) (x : Compositor) : (s.setComp x).resetPin = s.resetPin := rfl
@[simp] theorem State.setComp_supplyPin (s : State) (x : Compositor) : (s.setComp x).supplyPin = s.supplyPin := rfl
@[simp] theorem State.setComp_link (s : State) (x : Compositor) : (s.setComp x).link = s.link := rfl
@[simp] theorem State.setComp_dir (s : State) (x : Compositor) : (s.setComp x).dir = s.dir := rfl
@[simp] theorem State.setComp_load (s : State) (x : Compositor) : (s.setComp x).load = s.load := rfl
@[simp] theorem State.setComp_sweep (s : State) (x : Compositor) : (s.setComp x).sweep = s.sweep := rfl
@[simp] theorem State.setComp_nav (s : State) (x : Compositor) : (s.setComp x).nav = s.nav := rfl
@[simp] theorem State.setComp_comp (s : State) (x : Compositor) : (s.setComp x).comp = x := rfl
@[simp] theorem State.setComp_pins (s : State) (x : Compositor) : (s.setComp x).pins = s.pins := rfl
@[simp] theorem State.setComp_drive (s : State) (x : Compositor) : (s.setComp x).drive = s.drive := rfl
@[simp] theorem State.setComp_cal (s : State) (x : Compositor) : (s.setComp x).cal = s.cal := rfl
@[simp] theorem State.setComp_touch (s : State) (x : Compositor) : (s.setComp x).touch = s.touch := rfl

/-! ### setPins -/

@[simp] theorem State.setPins_pending (s : State) (x : PinField) : (s.setPins x).pending = s.pending := rfl
@[simp] theorem State.setPins_resetPin (s : State) (x : PinField) : (s.setPins x).resetPin = s.resetPin := rfl
@[simp] theorem State.setPins_supplyPin (s : State) (x : PinField) : (s.setPins x).supplyPin = s.supplyPin := rfl
@[simp] theorem State.setPins_link (s : State) (x : PinField) : (s.setPins x).link = s.link := rfl
@[simp] theorem State.setPins_dir (s : State) (x : PinField) : (s.setPins x).dir = s.dir := rfl
@[simp] theorem State.setPins_load (s : State) (x : PinField) : (s.setPins x).load = s.load := rfl
@[simp] theorem State.setPins_sweep (s : State) (x : PinField) : (s.setPins x).sweep = s.sweep := rfl
@[simp] theorem State.setPins_nav (s : State) (x : PinField) : (s.setPins x).nav = s.nav := rfl
@[simp] theorem State.setPins_comp (s : State) (x : PinField) : (s.setPins x).comp = s.comp := rfl
@[simp] theorem State.setPins_pins (s : State) (x : PinField) : (s.setPins x).pins = x := rfl
@[simp] theorem State.setPins_drive (s : State) (x : PinField) : (s.setPins x).drive = s.drive := rfl
@[simp] theorem State.setPins_cal (s : State) (x : PinField) : (s.setPins x).cal = s.cal := rfl
@[simp] theorem State.setPins_touch (s : State) (x : PinField) : (s.setPins x).touch = s.touch := rfl

/-! ### setDrive -/

@[simp] theorem State.setDrive_pending (s : State) (x : Drive) : (s.setDrive x).pending = s.pending := rfl
@[simp] theorem State.setDrive_resetPin (s : State) (x : Drive) : (s.setDrive x).resetPin = s.resetPin := rfl
@[simp] theorem State.setDrive_supplyPin (s : State) (x : Drive) : (s.setDrive x).supplyPin = s.supplyPin := rfl
@[simp] theorem State.setDrive_link (s : State) (x : Drive) : (s.setDrive x).link = s.link := rfl
@[simp] theorem State.setDrive_dir (s : State) (x : Drive) : (s.setDrive x).dir = s.dir := rfl
@[simp] theorem State.setDrive_load (s : State) (x : Drive) : (s.setDrive x).load = s.load := rfl
@[simp] theorem State.setDrive_sweep (s : State) (x : Drive) : (s.setDrive x).sweep = s.sweep := rfl
@[simp] theorem State.setDrive_nav (s : State) (x : Drive) : (s.setDrive x).nav = s.nav := rfl
@[simp] theorem State.setDrive_comp (s : State) (x : Drive) : (s.setDrive x).comp = s.comp := rfl
@[simp] theorem State.setDrive_pins (s : State) (x : Drive) : (s.setDrive x).pins = s.pins := rfl
@[simp] theorem State.setDrive_drive (s : State) (x : Drive) : (s.setDrive x).drive = x := rfl
@[simp] theorem State.setDrive_cal (s : State) (x : Drive) : (s.setDrive x).cal = s.cal := rfl
@[simp] theorem State.setDrive_touch (s : State) (x : Drive) : (s.setDrive x).touch = s.touch := rfl

/-! ### setCal -/

@[simp] theorem State.setCal_pending (s : State) (x : Calendar) : (s.setCal x).pending = s.pending := rfl
@[simp] theorem State.setCal_resetPin (s : State) (x : Calendar) : (s.setCal x).resetPin = s.resetPin := rfl
@[simp] theorem State.setCal_supplyPin (s : State) (x : Calendar) : (s.setCal x).supplyPin = s.supplyPin := rfl
@[simp] theorem State.setCal_link (s : State) (x : Calendar) : (s.setCal x).link = s.link := rfl
@[simp] theorem State.setCal_dir (s : State) (x : Calendar) : (s.setCal x).dir = s.dir := rfl
@[simp] theorem State.setCal_load (s : State) (x : Calendar) : (s.setCal x).load = s.load := rfl
@[simp] theorem State.setCal_sweep (s : State) (x : Calendar) : (s.setCal x).sweep = s.sweep := rfl
@[simp] theorem State.setCal_nav (s : State) (x : Calendar) : (s.setCal x).nav = s.nav := rfl
@[simp] theorem State.setCal_comp (s : State) (x : Calendar) : (s.setCal x).comp = s.comp := rfl
@[simp] theorem State.setCal_pins (s : State) (x : Calendar) : (s.setCal x).pins = s.pins := rfl
@[simp] theorem State.setCal_drive (s : State) (x : Calendar) : (s.setCal x).drive = s.drive := rfl
@[simp] theorem State.setCal_cal (s : State) (x : Calendar) : (s.setCal x).cal = x := rfl
@[simp] theorem State.setCal_touch (s : State) (x : Calendar) : (s.setCal x).touch = s.touch := rfl

/-! ### setTouch -/

@[simp] theorem State.setTouch_pending (s : State) (x : Touch) : (s.setTouch x).pending = s.pending := rfl
@[simp] theorem State.setTouch_resetPin (s : State) (x : Touch) : (s.setTouch x).resetPin = s.resetPin := rfl
@[simp] theorem State.setTouch_supplyPin (s : State) (x : Touch) : (s.setTouch x).supplyPin = s.supplyPin := rfl
@[simp] theorem State.setTouch_link (s : State) (x : Touch) : (s.setTouch x).link = s.link := rfl
@[simp] theorem State.setTouch_dir (s : State) (x : Touch) : (s.setTouch x).dir = s.dir := rfl
@[simp] theorem State.setTouch_load (s : State) (x : Touch) : (s.setTouch x).load = s.load := rfl
@[simp] theorem State.setTouch_sweep (s : State) (x : Touch) : (s.setTouch x).sweep = s.sweep := rfl
@[simp] theorem State.setTouch_nav (s : State) (x : Touch) : (s.setTouch x).nav = s.nav := rfl
@[simp] theorem State.setTouch_comp (s : State) (x : Touch) : (s.setTouch x).comp = s.comp := rfl
@[simp] theorem State.setTouch_pins (s : State) (x : Touch) : (s.setTouch x).pins = s.pins := rfl
@[simp] theorem State.setTouch_drive (s : State) (x : Touch) : (s.setTouch x).drive = s.drive := rfl
@[simp] theorem State.setTouch_cal (s : State) (x : Touch) : (s.setTouch x).cal = s.cal := rfl
@[simp] theorem State.setTouch_touch (s : State) (x : Touch) : (s.setTouch x).touch = x := rfl

/-! ### respond, answer, shiftOut -/

@[simp] theorem State.respond_link (s : State) (c t : Byte) (r : Reply) :
    (s.respond c t r).link = s.link.answer c t r.status r.payload := rfl
@[simp] theorem State.answer_link (s : State) (c t : Byte) (st : Status) (p : List Byte) :
    (s.answer c t st p).link = s.link.answer c t st p := rfl
@[simp] theorem State.shiftOut_link (s : State) (b : List Byte) :
    (s.shiftOut b).link = { s.link with shiftedOut := b } := rfl
@[simp] theorem State.respond_pending (s : State) (c t : Byte) (r : Reply) : (s.respond c t r).pending = s.pending := rfl
@[simp] theorem State.answer_pending (s : State) (c t : Byte) (st : Status) (p : List Byte) :
    (s.answer c t st p).pending = s.pending := rfl
@[simp] theorem State.shiftOut_pending (s : State) (b : List Byte) : (s.shiftOut b).pending = s.pending := rfl
@[simp] theorem State.respond_resetPin (s : State) (c t : Byte) (r : Reply) : (s.respond c t r).resetPin = s.resetPin := rfl
@[simp] theorem State.answer_resetPin (s : State) (c t : Byte) (st : Status) (p : List Byte) :
    (s.answer c t st p).resetPin = s.resetPin := rfl
@[simp] theorem State.shiftOut_resetPin (s : State) (b : List Byte) : (s.shiftOut b).resetPin = s.resetPin := rfl
@[simp] theorem State.respond_supplyPin (s : State) (c t : Byte) (r : Reply) : (s.respond c t r).supplyPin = s.supplyPin := rfl
@[simp] theorem State.answer_supplyPin (s : State) (c t : Byte) (st : Status) (p : List Byte) :
    (s.answer c t st p).supplyPin = s.supplyPin := rfl
@[simp] theorem State.shiftOut_supplyPin (s : State) (b : List Byte) : (s.shiftOut b).supplyPin = s.supplyPin := rfl
@[simp] theorem State.respond_dir (s : State) (c t : Byte) (r : Reply) : (s.respond c t r).dir = s.dir := rfl
@[simp] theorem State.answer_dir (s : State) (c t : Byte) (st : Status) (p : List Byte) :
    (s.answer c t st p).dir = s.dir := rfl
@[simp] theorem State.shiftOut_dir (s : State) (b : List Byte) : (s.shiftOut b).dir = s.dir := rfl
@[simp] theorem State.respond_load (s : State) (c t : Byte) (r : Reply) : (s.respond c t r).load = s.load := rfl
@[simp] theorem State.answer_load (s : State) (c t : Byte) (st : Status) (p : List Byte) :
    (s.answer c t st p).load = s.load := rfl
@[simp] theorem State.shiftOut_load (s : State) (b : List Byte) : (s.shiftOut b).load = s.load := rfl
@[simp] theorem State.respond_sweep (s : State) (c t : Byte) (r : Reply) : (s.respond c t r).sweep = s.sweep := rfl
@[simp] theorem State.answer_sweep (s : State) (c t : Byte) (st : Status) (p : List Byte) :
    (s.answer c t st p).sweep = s.sweep := rfl
@[simp] theorem State.shiftOut_sweep (s : State) (b : List Byte) : (s.shiftOut b).sweep = s.sweep := rfl
@[simp] theorem State.respond_nav (s : State) (c t : Byte) (r : Reply) : (s.respond c t r).nav = s.nav := rfl
@[simp] theorem State.answer_nav (s : State) (c t : Byte) (st : Status) (p : List Byte) :
    (s.answer c t st p).nav = s.nav := rfl
@[simp] theorem State.shiftOut_nav (s : State) (b : List Byte) : (s.shiftOut b).nav = s.nav := rfl
@[simp] theorem State.respond_comp (s : State) (c t : Byte) (r : Reply) : (s.respond c t r).comp = s.comp := rfl
@[simp] theorem State.answer_comp (s : State) (c t : Byte) (st : Status) (p : List Byte) :
    (s.answer c t st p).comp = s.comp := rfl
@[simp] theorem State.shiftOut_comp (s : State) (b : List Byte) : (s.shiftOut b).comp = s.comp := rfl
@[simp] theorem State.respond_pins (s : State) (c t : Byte) (r : Reply) : (s.respond c t r).pins = s.pins := rfl
@[simp] theorem State.answer_pins (s : State) (c t : Byte) (st : Status) (p : List Byte) :
    (s.answer c t st p).pins = s.pins := rfl
@[simp] theorem State.shiftOut_pins (s : State) (b : List Byte) : (s.shiftOut b).pins = s.pins := rfl
@[simp] theorem State.respond_drive (s : State) (c t : Byte) (r : Reply) : (s.respond c t r).drive = s.drive := rfl
@[simp] theorem State.answer_drive (s : State) (c t : Byte) (st : Status) (p : List Byte) :
    (s.answer c t st p).drive = s.drive := rfl
@[simp] theorem State.shiftOut_drive (s : State) (b : List Byte) : (s.shiftOut b).drive = s.drive := rfl
@[simp] theorem State.respond_cal (s : State) (c t : Byte) (r : Reply) : (s.respond c t r).cal = s.cal := rfl
@[simp] theorem State.answer_cal (s : State) (c t : Byte) (st : Status) (p : List Byte) :
    (s.answer c t st p).cal = s.cal := rfl
@[simp] theorem State.shiftOut_cal (s : State) (b : List Byte) : (s.shiftOut b).cal = s.cal := rfl
@[simp] theorem State.respond_touch (s : State) (c t : Byte) (r : Reply) : (s.respond c t r).touch = s.touch := rfl
@[simp] theorem State.answer_touch (s : State) (c t : Byte) (st : Status) (p : List Byte) :
    (s.answer c t st p).touch = s.touch := rfl
@[simp] theorem State.shiftOut_touch (s : State) (b : List Byte) : (s.shiftOut b).touch = s.touch := rfl

/-- Forming a response is answering with its status and payload. -/
theorem State.respond_eq_answer (s : State) (c t : Byte) (r : Reply) :
    s.respond c t r = s.answer c t r.status r.payload := rfl

/-! ### The link after an answer -/

@[simp] theorem Link.answer_buffer (l : Link) (c t : Byte) (st : Status) (p : List Byte) :
    (l.answer c t st p).buffer = none := rfl
@[simp] theorem Link.answer_response (l : Link) (c t : Byte) (st : Status) (p : List Byte) :
    (l.answer c t st p).response = some ⟨t, c, st, p⟩ := rfl
@[simp] theorem Link.answer_notices (l : Link) (c t : Byte) (st : Status) (p : List Byte) :
    (l.answer c t st p).notices = l.notices := rfl
@[simp] theorem Link.answer_mask (l : Link) (c t : Byte) (st : Status) (p : List Byte) :
    (l.answer c t st p).mask = l.mask := rfl
@[simp] theorem Link.answer_cause (l : Link) (c t : Byte) (st : Status) (p : List Byte) :
    (l.answer c t st p).cause = l.cause := rfl
@[simp] theorem Link.answer_shiftedOut (l : Link) (c t : Byte) (st : Status) (p : List Byte) :
    (l.answer c t st p).shiftedOut = l.shiftedOut := rfl
@[simp] theorem Link.answer_served (l : Link) (c t : Byte) (st : Status) (p : List Byte) :
    (l.answer c t st p).served = l.served + 1 := rfl

/-! ### Posting -/

@[simp] theorem State.post_pending (s : State) (n : Notice) : (s.post n).pending = s.pending := by
  unfold State.post; split <;> rfl
@[simp] theorem State.post_resetPin (s : State) (n : Notice) : (s.post n).resetPin = s.resetPin := by
  unfold State.post; split <;> rfl
@[simp] theorem State.post_supplyPin (s : State) (n : Notice) : (s.post n).supplyPin = s.supplyPin := by
  unfold State.post; split <;> rfl
@[simp] theorem State.post_dir (s : State) (n : Notice) : (s.post n).dir = s.dir := by
  unfold State.post; split <;> rfl
@[simp] theorem State.post_load (s : State) (n : Notice) : (s.post n).load = s.load := by
  unfold State.post; split <;> rfl
@[simp] theorem State.post_sweep (s : State) (n : Notice) : (s.post n).sweep = s.sweep := by
  unfold State.post; split <;> rfl
@[simp] theorem State.post_nav (s : State) (n : Notice) : (s.post n).nav = s.nav := by
  unfold State.post; split <;> rfl
@[simp] theorem State.post_comp (s : State) (n : Notice) : (s.post n).comp = s.comp := by
  unfold State.post; split <;> rfl
@[simp] theorem State.post_pins (s : State) (n : Notice) : (s.post n).pins = s.pins := by
  unfold State.post; split <;> rfl
@[simp] theorem State.post_drive (s : State) (n : Notice) : (s.post n).drive = s.drive := by
  unfold State.post; split <;> rfl
@[simp] theorem State.post_cal (s : State) (n : Notice) : (s.post n).cal = s.cal := by
  unfold State.post; split <;> rfl
@[simp] theorem State.post_touch (s : State) (n : Notice) : (s.post n).touch = s.touch := by
  unfold State.post; split <;> rfl

/-- R186, R187: a posting changes the notice queue and nothing else of the link. -/
theorem State.post_link (s : State) (n : Notice) :
    (s.post n).link = { s.link with
      notices := if s.link.masked n then s.link.notices else enqueueNotice s.link.notices n } := by
  unfold State.post; split <;> simp_all

@[simp] theorem State.post_mask (s : State) (n : Notice) : (s.post n).link.mask = s.link.mask := by
  rw [State.post_link]

@[simp] theorem State.postDrive_pending (s : State) : s.postDrive.pending = s.pending := by simp [State.postDrive]
@[simp] theorem State.postDrive_resetPin (s : State) : s.postDrive.resetPin = s.resetPin := by simp [State.postDrive]
@[simp] theorem State.postDrive_supplyPin (s : State) : s.postDrive.supplyPin = s.supplyPin := by simp [State.postDrive]
@[simp] theorem State.postDrive_dir (s : State) : s.postDrive.dir = s.dir := by simp [State.postDrive]
@[simp] theorem State.postDrive_load (s : State) : s.postDrive.load = s.load := by simp [State.postDrive]
@[simp] theorem State.postDrive_sweep (s : State) : s.postDrive.sweep = s.sweep := by simp [State.postDrive]
@[simp] theorem State.postDrive_nav (s : State) : s.postDrive.nav = s.nav := by simp [State.postDrive]
@[simp] theorem State.postDrive_comp (s : State) : s.postDrive.comp = s.comp := by simp [State.postDrive]
@[simp] theorem State.postDrive_pins (s : State) : s.postDrive.pins = s.pins := by simp [State.postDrive]
@[simp] theorem State.postDrive_drive (s : State) : s.postDrive.drive = s.drive := by simp [State.postDrive]
@[simp] theorem State.postDrive_cal (s : State) : s.postDrive.cal = s.cal := by simp [State.postDrive]
@[simp] theorem State.postDrive_touch (s : State) : s.postDrive.touch = s.touch := by simp [State.postDrive]
@[simp] theorem State.postTouch_pending (s : State) : s.postTouch.pending = s.pending := by simp [State.postTouch]
@[simp] theorem State.postTouch_resetPin (s : State) : s.postTouch.resetPin = s.resetPin := by simp [State.postTouch]
@[simp] theorem State.postTouch_supplyPin (s : State) : s.postTouch.supplyPin = s.supplyPin := by simp [State.postTouch]
@[simp] theorem State.postTouch_dir (s : State) : s.postTouch.dir = s.dir := by simp [State.postTouch]
@[simp] theorem State.postTouch_load (s : State) : s.postTouch.load = s.load := by simp [State.postTouch]
@[simp] theorem State.postTouch_sweep (s : State) : s.postTouch.sweep = s.sweep := by simp [State.postTouch]
@[simp] theorem State.postTouch_nav (s : State) : s.postTouch.nav = s.nav := by simp [State.postTouch]
@[simp] theorem State.postTouch_comp (s : State) : s.postTouch.comp = s.comp := by simp [State.postTouch]
@[simp] theorem State.postTouch_pins (s : State) : s.postTouch.pins = s.pins := by simp [State.postTouch]
@[simp] theorem State.postTouch_drive (s : State) : s.postTouch.drive = s.drive := by simp [State.postTouch]
@[simp] theorem State.postTouch_cal (s : State) : s.postTouch.cal = s.cal := by simp [State.postTouch]
@[simp] theorem State.postTouch_touch (s : State) : s.postTouch.touch = s.touch := by simp [State.postTouch]

end Sys2Proof.Machine
end

