-- ==== Sys2Proof/Laws/Notices.lean ====
section
/-! SUPPORT. The notice queue (R186): a posting merges into the queued notice of its kind and subject or is
appended, and no two notices of one kind and subject are ever queued. -/

namespace Sys2Proof.Machine

/-- The kind and subject under which the queue merges. -/
def Notice.slot (n : Notice) : Nat × Nat := (n.kindCode, n.subject)

theorem Notice.sameSubject_iff (a b : Notice) : a.sameSubject b = true ↔ a.slot = b.slot := by
  simp [Notice.sameSubject, Notice.slot]

/-- Merging keeps the kind and subject. -/
theorem Notice.merge_slot (a b : Notice) (h : a.slot = b.slot) : (a.merge b).slot = a.slot := by
  cases a <;> cases b <;> simp_all [Notice.slot, Notice.merge, Notice.kindCode, Notice.subject]

/-- The kinds and subjects queued after a posting. -/
theorem enqueueNotice_slots (q : List Notice) (n : Notice) :
    (enqueueNotice q n).map Notice.slot =
      if n.slot ∈ q.map Notice.slot then q.map Notice.slot else q.map Notice.slot ++ [n.slot] := by
  have hany : q.any (fun o => o.sameSubject n) = true ↔ n.slot ∈ q.map Notice.slot := by
    simp [Notice.sameSubject_iff]
  unfold enqueueNotice
  by_cases h : q.any (fun o => o.sameSubject n) = true
  · rw [if_pos h, if_pos (hany.mp h), List.map_map]
    refine List.map_congr_left fun o _ => ?_
    simp only [Function.comp_apply]
    split
    · exact Notice.merge_slot o n ((Notice.sameSubject_iff o n).mp (by assumption))
    · rfl
  · rw [if_neg h, if_neg (fun hh => h (hany.mpr hh))]; simp

/-- R186: a posting never queues two notices of one kind and subject. -/
theorem enqueueNotice_distinct (q : List Notice) (n : Notice) (h : (q.map Notice.slot).Nodup) :
    ((enqueueNotice q n).map Notice.slot).Nodup := by
  rw [enqueueNotice_slots]
  split
  · exact h
  · exact List.nodup_append.mpr ⟨h, by simp, by simp_all⟩

/-- Merging keeps the kind. -/
theorem Notice.merge_kindCode (a b : Notice) (h : a.slot = b.slot) : (a.merge b).kindCode = a.kindCode := by
  have := Notice.merge_slot a b h
  simp only [Notice.slot, Prod.mk.injEq] at this
  exact this.1

/-- A posting of SETTLE leaves the notices of every other kind in their order. -/
theorem otherNotices_enqueue_settle (q : List Notice) (d k : Nat) :
    otherNotices (enqueueNotice q (.settle d k)) = otherNotices q := by
  unfold enqueueNotice
  split
  · clear * -
    induction q with
    | nil => rfl
    | cons o rest ih =>
      simp only [otherNotices, List.map_cons, List.filter_cons] at ih ⊢
      by_cases ho : o.sameSubject (.settle d k) = true
      · have hs := (Notice.sameSubject_iff _ _).mp ho
        have hk : o.kindCode = 9 := by
          have := congrArg Prod.fst hs; simpa [Notice.slot, Notice.kindCode] using this
        have hm := Notice.merge_kindCode o _ hs
        simp [ho, hm, hk, ih]
      · simp [ho, ih]
  · simp [otherNotices, Notice.kindCode]

/-- A posting of another kind than SETTLE meets the notices of the other kinds as if no SETTLE were queued. -/
theorem otherNotices_enqueue_other (q : List Notice) (n : Notice) (hn : n.kindCode ≠ 9) :
    otherNotices (enqueueNotice q n) = enqueueNotice (otherNotices q) n := by
  have hkind : ∀ o : Notice, o.sameSubject n = true → o.kindCode ≠ 9 := fun o ho => by
    have := congrArg Prod.fst ((Notice.sameSubject_iff o n).mp ho)
    simp only [Notice.slot] at this
    omega
  have hany : (otherNotices q).any (fun o => o.sameSubject n) = q.any (fun o => o.sameSubject n) := by
    rw [Bool.eq_iff_iff]
    simp only [otherNotices, List.any_eq_true, List.mem_filter, bne_iff_ne]
    exact ⟨fun ⟨o, h, hs⟩ => ⟨o, h.1, hs⟩, fun ⟨o, h, hs⟩ => ⟨o, ⟨h, hkind o hs⟩, hs⟩⟩
  unfold enqueueNotice
  rw [hany]
  split
  · clear * - hkind
    induction q with
    | nil => rfl
    | cons o rest ih =>
      simp only [otherNotices, List.map_cons, List.filter_cons] at ih ⊢
      by_cases ho : o.sameSubject n = true
      · have hs := (Notice.sameSubject_iff _ _).mp ho
        have hm := Notice.merge_kindCode o n hs
        have h9 := hkind o ho
        simp [ho, hm, h9, ih]
      · by_cases h9 : o.kindCode = 9 <;> simp [ho, h9, ih]
  · simp [otherNotices, hn]

end Sys2Proof.Machine
end

