-- ==== Sys2Proof/Laws/Operands.lean ====
section
/-! SUPPORT. The readers of the payload records give back what their encoders wrote, and refuse what is out of range:
one lemma per record. -/

namespace Sys2Proof.Machine

/-- Two bytes of a number give it back. -/
@[simp] theorem word16_put16 (w : BitVec 16) : word16 (w.setWidth 8) ((w >>> 8).setWidth 8) = w := by
  apply BitVec.eq_of_toNat_eq
  have := w.isLt
  simp only [word16, BitVec.toNat_append, BitVec.toNat_setWidth, BitVec.toNat_ushiftRight, Nat.shiftRight_eq_div_pow]
  rw [← Nat.shiftLeft_add_eq_or_of_lt (by omega), Nat.shiftLeft_eq]
  omega

@[simp] theorem put8_toNat (n : Nat) : (put8 n).toNat = n % 256 := by simp [put8]

theorem put16_putNat16_toNat (n : Nat) (h : n < 65536) : (BitVec.ofNat 16 n).toNat = n := by
  simp [Nat.mod_eq_of_lt h]

@[simp] theorem readBool_putBool (b : Bool) : readBool (putBool b) = some b := by cases b <;> rfl

theorem readBool_none (v : Byte) (h : 2 ≤ v.toNat) : readBool v = none := by
  unfold readBool
  rw [if_neg (by rintro rfl; simp at h), if_neg (by rintro rfl; simp at h)]

@[simp] theorem readNibble_setWidth (d : BitVec 4) : readNibble (d.setWidth 8) = some d := by
  revert d; decide

theorem readNibble_none (v : Byte) (h : 16 ≤ v.toNat) : readNibble v = none := if_neg (by omega)

theorem readBelow_put8 {n : Nat} (hn : n ≤ 256) (i : Fin n) : readBelow n (put8 i.val) = some i := by
  have : (put8 i.val).toNat = i.val := by rw [put8_toNat]; omega
  unfold readBelow
  rw [dif_pos (by rw [this]; exact i.isLt)]
  exact congrArg some (Fin.ext this)

@[simp] theorem readBelow_slot (i : Fin 2) : readBelow 2 (put8 i.val) = some i := readBelow_put8 (by decide) i
@[simp] theorem readBelow_line (i : Fin 32) : readBelow 32 (put8 i.val) = some i := readBelow_put8 (by decide) i
@[simp] theorem readBelow_row (i : Fin 128) : readBelow 128 (put8 i.val) = some i := readBelow_put8 (by decide) i
@[simp] theorem readBelow_col (i : Fin 80) : readBelow 80 (put8 i.val) = some i := readBelow_put8 (by decide) i

theorem readBelow_none {n : Nat} (v : Byte) (h : n ≤ v.toNat) : readBelow n v = none := dif_neg (by omega)

/-- A key record reads back. -/
@[simp] theorem readKey_putKey (k : Key) :
    readKey (k.doc.setWidth 8) (k.page.setWidth 8) ((k.page >>> 8).setWidth 8) = some k := by
  simp [readKey]

theorem readKey_none (d lo hi : Byte) (h : 16 ≤ d.toNat) : readKey d lo hi = none := by
  simp [readKey, readNibble_none d h]

@[simp] theorem readKind_code (k : Kind) : readKind k.code = some k := by cases k <;> rfl

@[simp] theorem readClass_code (c : MarkClass) : readClass (put8 c.code) = some c := by cases c <;> rfl

/-- A condition's bytes read back. -/
theorem Condition.read_bytes (c : Condition) (x y : Byte) :
    ∃ code lo hi, c.bytes x y = [code, lo, hi] ∧ readCondition code lo hi = some c := by
  cases c with
  | unconditional => exact ⟨0, x, y, rfl, rfl⟩
  | ifRevision r =>
    exact ⟨1, r.setWidth 8, (r >>> 8).setWidth 8, rfl, by simp [readCondition]⟩

theorem readCondition_none (c lo hi : Byte) (h0 : c ≠ 0) (h1 : c ≠ 1) : readCondition c lo hi = none := by
  rw [readCondition, if_neg h0, if_neg h1]

/-- A commit condition's bytes read back. -/
theorem CommitCondition.read_bytes (c : CommitCondition) (x y : Byte) :
    ∃ code lo hi, c.bytes x y = [code, lo, hi] ∧ readCommitCondition code lo hi = some c := by
  cases c with
  | newOnly => exact ⟨2, x, y, rfl, rfl⟩
  | any => exact ⟨3, x, y, rfl, rfl⟩
  | ifRevision r =>
    exact ⟨1, r.setWidth 8, (r >>> 8).setWidth 8, rfl, by simp [readCommitCondition]⟩

/-- A mark's geometry and class read back, with owner SUPPLIED. -/
theorem readMark_bytes (c : MarkClass) (line : Fin 32) (first length : Nat) (h1 : 1 ≤ length)
    (h2 : first + length ≤ 40) :
    readMark (put8 c.code) (put8 line.val) (put8 first) (put8 length) =
      some ⟨c, .supplied, line, first, length⟩ := by
  have hf : first % 256 = first := Nat.mod_eq_of_lt (by omega)
  have hl : length % 256 = length := Nat.mod_eq_of_lt (by omega)
  have hc : first < 40 ∧ 1 ≤ length ∧ length ≤ 40 ∧ first + length ≤ 40 := by omega
  simp [readMark, hf, hl, hc]

@[simp] theorem readClassSet_setWidth (c : BitVec 4) : readClassSet (c.setWidth 8) = some c := by
  revert c; decide

@[simp] theorem readOwnerSet_setWidth (c : BitVec 2) : readOwnerSet (c.setWidth 8) = some c := by
  revert c; decide

@[simp] theorem readLineSelector_putIndexOr (l : Option (Fin 32)) :
    readLineSelector (putIndexOr (l.map Fin.val)) = some l := by
  cases l with
  | none => rfl
  | some l => revert l; decide

/-- OPEN LOAD's arguments read back. -/
theorem readOpenArgs_bytes (a : OpenArgs) (x y : Byte) : readOpenArgs (a.bytes x y) = some a := by
  obtain ⟨c, lo, hi, h, hr⟩ := a.condition.read_bytes x y
  simp [OpenArgs.bytes, h, putKey, put16, readOpenArgs, hr]

/-- The payload of OPEN LOAD has nine bytes. -/
theorem OpenArgs.bytes_length (a : OpenArgs) (x y : Byte) : (a.bytes x y).length = 9 := by
  obtain ⟨c, lo, hi, h, -⟩ := a.condition.read_bytes x y
  simp [OpenArgs.bytes, h, putKey, put16]

end Sys2Proof.Machine
end

