-- ==== Sys2Proof/Laws/PinPath.lean ====
section
/-! SUPPORT. What the pin path's own operations leave alone: planning, the visits of the calendar, waking and
recomposition change nothing but what PinPath names. -/

namespace Sys2Proof.Machine

theorem PinPath.refl (s : State) : PinPath s s := by
  constructor <;> first | rfl | exact .inl rfl | (intro z; rfl)

theorem PinPath.trans {s t u : State} (h : PinPath s t) (k : PinPath t u) : PinPath s u where
  pending := k.pending.trans h.pending
  resetPin := k.resetPin.trans h.resetPin
  supplyPin := k.supplyPin.trans h.supplyPin
  link := by rw [k.link, h.link]
  notices := k.notices.trans h.notices
  dir := k.dir.trans h.dir
  load := k.load.trans h.load
  sweep := k.sweep.trans h.sweep
  nav := k.nav.trans h.nav
  comp := by rw [k.comp, h.comp]
  pins := by rw [k.pins, h.pins]
  drive := by rw [k.drive, h.drive]
  hold := k.hold.trans h.hold
  slots := k.slots.trans h.slots
  sched := by
    rcases k.sched with e | ⟨e, f⟩
    · rcases h.sched with e' | ⟨e', f'⟩
      · exact .inl (e.trans e')
      · exact .inr ⟨e', e ▸ f'⟩
    · rcases h.sched with e' | ⟨e', f'⟩
      · exact .inr ⟨e' ▸ e, f⟩
      · exact .inr ⟨e', f⟩
  touch := by rw [k.touch, h.touch]
  zones := fun z => by rw [k.zones z, h.zones z]

/-! ### The blocks of the pin path, one by one -/

theorem PinPath.setDrive {s : State} {x : Drive}
    (h : x = { s.drive with cond := x.cond, level := x.level }) : PinPath s (s.setDrive x) := by
  constructor <;> first | rfl | exact .inl rfl | (intro z; rfl) | exact h

theorem PinPath.setCal {s : State} {x : Calendar} (hold : x.hold = s.cal.hold)
    (slots : x.slots.map (fun c => (c.first, c.last, c.count, c.follow)) =
      s.cal.slots.map (fun c => (c.first, c.last, c.count, c.follow)))
    (sched : x.sched = s.cal.sched ∨ (s.cal.sched.atWork = true ∧ x.sched.atWork = true)) :
    PinPath s (s.setCal x) := by
  constructor <;> first | rfl | assumption | (intro z; rfl)

theorem PinPath.setTouch {s : State} {x : Touch} (h : x = { s.touch with zones := x.zones })
    (hz : ∀ z : Fin 16, x.zones[z] = { s.touch.zones[z] with hold := x.zones[z].hold }) :
    PinPath s (s.setTouch x) := by
  constructor <;> first | rfl | exact .inl rfl | assumption

theorem PinPath.setComp {s : State} {x : Compositor}
    (h : x = { s.comp with target := x.target, markPins := x.markPins }) : PinPath s (s.setComp x) := by
  constructor <;> first | rfl | exact .inl rfl | (intro z; rfl) | assumption

theorem PinPath.setPins {s : State} {x : PinField} (h : x = { s.pins with attempts := x.attempts }) :
    PinPath s (s.setPins x) := by
  constructor <;> first | rfl | exact .inl rfl | (intro z; rfl) | assumption

theorem PinPath.settle (s : State) (d k : Nat) : PinPath s (s.post (.settle d k)) := by
  constructor <;> simp only [State.post_pending, State.post_resetPin, State.post_supplyPin, State.post_dir,
    State.post_load, State.post_sweep, State.post_nav, State.post_comp, State.post_pins, State.post_drive,
    State.post_cal, State.post_touch, State.post_link, true_or, implies_true]
  split
  · rfl
  · exact otherNotices_enqueue_settle _ _ _

/-! ### Planning and starting (R137 to R142) -/

/-- Starting a zone's hold timer changes that timer alone. -/
theorem Touch.startHold_frame (t : Touch) (z : Fin 16) :
    t.startHold z = { t with zones := (t.startHold z).zones } ∧
      ∀ y : Fin 16, (t.startHold z).zones[y] = { t.zones[y] with hold := (t.startHold z).zones[y].hold } := by
  have e : t.startHold z = if t.zones[z].state = .touched ∧ t.zones[z].hold = none then
      { t with zones := t.zones.set z { t.zones[z] with hold := some t.holdLimit } } else t := rfl
  rw [e]
  split
  · refine ⟨rfl, fun y => ?_⟩
    by_cases h : z = y
    · subst h; simp
    · simp [Vector.getElem_set_ne, Fin.val_ne_of_ne h]
  · exact ⟨rfl, fun y => rfl⟩

theorem PinPath.startHold (s : State) (t : Touch) (z : Fin 16) (h : PinPath s (s.setTouch t)) :
    PinPath s (s.setTouch (t.startHold z)) :=
  h.trans (PinPath.setTouch (s := s.setTouch t) (t.startHold_frame z).1 (t.startHold_frame z).2)

theorem PinPath.reportDeferred (s : State) (r : Fin 128) : PinPath s (s.reportDeferred r) := by
  unfold State.reportDeferred
  simp only
  split <;> split <;>
    first
    | exact PinPath.refl s
    | exact PinPath.startHold s _ _ (PinPath.refl s)
    | exact PinPath.startHold s _ _ (PinPath.startHold s _ _ (PinPath.refl s))

theorem PinPath.startStroke (s : State) (p : Plan) : PinPath s (s.startStroke p) :=
  (PinPath.setDrive rfl).trans (PinPath.setCal rfl rfl (.inl rfl))

theorem PinPath.holdPlan (s : State) (p : Plan) : PinPath s (s.holdPlan p) := by
  unfold State.holdPlan
  split
  · exact PinPath.startStroke s p
  · exact PinPath.setDrive rfl

theorem PinPath.askDrive (s : State) (r : Fin 128) : PinPath s (s.askDrive r).1 := by
  unfold State.askDrive
  simp only
  split
  · exact (PinPath.reportDeferred s r).trans (PinPath.setDrive rfl)
  · exact (PinPath.reportDeferred s r).trans (PinPath.holdPlan _ _)

theorem PinPath.askSurvey (s : State) (r : Fin 128) : PinPath s (s.askSurvey r) := PinPath.holdPlan _ _

theorem PinPath.requestSurvey (s : State) : PinPath s s.requestSurvey := by
  unfold State.requestSurvey
  split
  · exact PinPath.askSurvey _ _
  · exact PinPath.refl s

theorem PinPath.startIfCharged (s : State) : PinPath s s.startIfCharged := by
  unfold State.startIfCharged
  split
  · split
    · exact PinPath.startStroke s _
    · exact PinPath.refl s
  · exact PinPath.refl s

/-! ### The visits of the calendar (R155 to R160) -/

theorem Calendar.passTurn_frame (c : Calendar) :
    c.passTurn.hold = c.hold ∧ c.passTurn.slots = c.slots ∧ c.passTurn.sched = c.sched ∧
      c.passTurn.visit = c.visit ∧ c.passTurn.quiet = c.quiet := by
  unfold Calendar.passTurn; split <;> simp

theorem Calendar.beginVisit_slots (c : Calendar) (band : Fin 8) :
    (c.beginVisit band).slots.map (fun c => (c.first, c.last, c.count, c.follow)) =
      c.slots.map (fun c => (c.first, c.last, c.count, c.follow)) := by
  unfold Calendar.beginVisit
  simp only
  refine List.ext_getElem? fun i => ?_
  simp only [List.getElem?_map, List.getElem?_modify]
  by_cases h : c.current = i
  · simp only [h, if_true]; cases c.slots[i]? <;> rfl
  · simp only [h, if_false]; cases c.slots[i]? <;> rfl

/-- The calendar of a scheduler at work may pass to IDLE with a SETTLE notice. -/
theorem PinPath.enterIdle (s : State) (h : s.cal.sched.atWork = true) : PinPath s s.enterIdle := by
  unfold State.enterIdle State.settleNotice
  exact (PinPath.setCal (s := s) (x := { s.cal with sched := .idle }) rfl rfl (.inr ⟨h, rfl⟩)).trans
    (PinPath.settle _ _ _)

theorem PinPath.endVisit (s : State) (v : LineVisit) (h : s.cal.sched.atWork = true) :
    PinPath s (s.endVisit v).1 := by
  have f := Calendar.passTurn_frame { s.cal with
    visit := none, quiet := if v.started then s.cal.quiet else joinQuiet s.cal.quiet v.line }
  have e : PinPath s (s.setCal (Calendar.passTurn { s.cal with
      visit := none, quiet := if v.started then s.cal.quiet else joinQuiet s.cal.quiet v.line })) :=
    PinPath.setCal f.1 (by rw [f.2.1]) (.inl f.2.2.1)
  generalize hq : (if v.started then s.cal.quiet else joinQuiet s.cal.quiet v.line) = q at e f
  unfold State.endVisit
  simp only [hq]
  split
  · refine e.trans (PinPath.enterIdle _ ?_)
    rw [State.setCal_cal, f.2.2.1]
    exact h
  · exact e

theorem PinPath.rowDone (s : State) (v : LineVisit) (h : s.cal.sched.atWork = true) :
    PinPath s (s.rowDone v).1 := by
  unfold State.rowDone
  split
  · exact PinPath.endVisit s v h
  · exact PinPath.setCal rfl rfl (.inl rfl)

/-- A scheduler at work stays at work along the pin path. -/
theorem PinPath.atWork {s t : State} (h : PinPath s t) (hs : s.cal.sched.atWork = true) :
    t.cal.sched.atWork = true := by
  rcases h.sched with e | e
  · rw [e]; exact hs
  · exact e.2

theorem PinPath.calendarMove (s : State) (h : s.cal.sched.atWork = true) : PinPath s s.calendarMove.1 := by
  unfold State.calendarMove
  split
  · exact PinPath.setCal rfl (Calendar.beginVisit_slots _ _) (.inl rfl)
  · rename_i v _
    have e := PinPath.askDrive s (pinRow v.line v.row)
    split
    · rename_i t he; rw [he] at e; exact e
    · rename_i t he; rw [he] at e; exact e.trans (PinPath.rowDone t v (e.atWork h))

theorem PinPath.runCalendar (n : Nat) (s : State) (h : s.cal.sched.atWork = true) :
    PinPath s (State.runCalendar n s) := by
  induction n generalizing s with
  | zero => exact PinPath.refl s
  | succ n ih =>
    have e := PinPath.calendarMove s h
    unfold State.runCalendar
    split
    · rename_i t he; rw [he] at e; exact e.trans (ih t (e.atWork h))
    · rename_i t he; rw [he] at e; exact e

theorem PinPath.goOn {s : State} {r : State × Bool} (h : s.cal.sched.atWork = true) (e : PinPath s r.1) :
    PinPath s (State.goOn r) := by
  obtain ⟨t, b⟩ := r
  cases b
  · exact e
  · exact e.trans (PinPath.runCalendar _ t (e.atWork h))

theorem PinPath.driveOn (s : State) (h : s.cal.sched.atWork = true) : PinPath s s.driveOn := by
  have e : PinPath s (s.setCal { s.cal with sched := .driving, quiet := [] }) :=
    PinPath.setCal rfl rfl (.inr ⟨h, rfl⟩)
  exact e.trans (PinPath.runCalendar _ _ (e.atWork h))

theorem PinPath.wake (s : State) : PinPath s s.wake := by
  unfold State.wake
  split
  · exact PinPath.setCal rfl rfl (.inl rfl)
  · rename_i h; exact PinPath.driveOn s (by rw [h]; rfl)
  · exact PinPath.refl s

theorem PinPath.rowNothing (s : State) : PinPath s s.rowNothing := by
  unfold State.rowNothing
  split
  · rename_i v h _
    have hw : s.cal.sched.atWork = true := by rw [h]; rfl
    exact PinPath.goOn hw (PinPath.rowDone s v hw)
  · rename_i h _; exact PinPath.runCalendar _ s (by rw [h]; rfl)
  · exact PinPath.refl s

theorem PinPath.reform (s : State) (rows : Fin 128 → Bool) : PinPath s (s.reform rows) := by
  unfold State.reform
  split
  · split
    · rename_i p _ _
      have e := PinPath.askDrive s p.row
      split
      · rename_i t he; rw [he] at e; exact e
      · rename_i t he; rw [he] at e; exact e.trans (PinPath.rowNothing t)
    · exact PinPath.refl s
  · exact PinPath.refl s

/-! ### Recomposition (R109, R110, R171) -/

theorem PinPath.recompose (s : State) (lines : List (Fin 32)) : PinPath s (s.recompose lines) := by
  have e : PinPath s ((s.setComp { s.comp with
      target := s.newTarget lines, markPins := s.newMarkPins lines }).setPins
      { s.pins with attempts := storeDrop (pinChanged (s.targetChanges (s.newTarget lines))) s.pins.attempts }) :=
    (PinPath.setComp rfl).trans (PinPath.setPins rfl)
  unfold State.recompose
  simp only
  split
  · exact e
  · exact (e.trans (PinPath.reform _ _)).trans (PinPath.wake _)

theorem PinPath.tellLines (s : State) (i : Fin 48) (lines : List (Fin 32)) : PinPath s (s.tellLines i lines) := by
  unfold State.tellLines
  split
  · exact PinPath.recompose s lines
  · exact PinPath.refl s

theorem PinPath.tellCondition (s : State) (before : NavCondition) : PinPath s (s.tellCondition before) := by
  unfold State.tellCondition
  split
  · exact PinPath.recompose s _
  · exact PinPath.refl s

theorem PinPath.blinkChanged (s : State) : PinPath s s.blinkChanged := PinPath.recompose s _

/-- Moving the follow slot's cursor keeps the slots but for their cursors (R156). -/
theorem Calendar.followBand_slots (c : Calendar) (band : Fin 8) :
    (c.followBand band).slots.map (fun c => (c.first, c.last, c.count, c.follow)) =
      c.slots.map (fun c => (c.first, c.last, c.count, c.follow)) := by
  simp only [Calendar.followBand, List.map_map]
  refine List.map_congr_left fun x _ => ?_
  simp only [Function.comp_apply]
  split <;> rfl

/-- R171, steps 2 to 4: before the TOUCH notice is posted, telling a zone's change stays within the pin path. -/
theorem State.zoneChanged_eq (s : State) (z : Fin 16) (bandChanged : Bool) :
    ∃ t, PinPath s t ∧ s.zoneChanged z bandChanged = t.postTouch := by
  generalize h4 : ((s.recompose (s.zoneLines z)).reform fun r => bandOfRow r == bandOfZone z).wake = s4
  have e : PinPath s s4 := by
    rw [← h4]
    exact ((PinPath.recompose s (s.zoneLines z)).trans (PinPath.reform _ _)).trans (PinPath.wake _)
  have h : s.zoneChanged z bandChanged =
      (if bandChanged then s4.setCal (s4.cal.followBand s4.touch.band) else s4).postTouch := by
    rw [← h4]; rfl
  rw [h]
  cases bandChanged
  · exact ⟨s4, e, rfl⟩
  · exact ⟨s4.setCal (s4.cal.followBand s4.touch.band),
      e.trans (PinPath.setCal rfl (Calendar.followBand_slots _ _) (.inl rfl)), rfl⟩

/-- The pin path commutes with a posting of another kind than SETTLE, as far as PinPath can see. -/
theorem PinPath.post {s t : State} (h : PinPath s t) (n : Notice) (hn : n.kindCode ≠ 9) :
    PinPath (s.post n) (t.post n) := by
  have hl := h.link
  have hm : t.link.masked n = s.link.masked n := by rw [hl]; rfl
  constructor
  case link =>
    rw [State.post_link, State.post_link, hl]
  case notices =>
    rw [State.post_link, State.post_link, hm]
    simp only
    split
    · exact h.notices
    · rw [otherNotices_enqueue_other _ _ hn, otherNotices_enqueue_other _ _ hn, h.notices]
  all_goals simp only [State.post_pending, State.post_resetPin, State.post_supplyPin, State.post_dir,
    State.post_load, State.post_sweep, State.post_nav, State.post_comp, State.post_pins, State.post_drive,
    State.post_cal, State.post_touch]
  · exact h.pending
  · exact h.resetPin
  · exact h.supplyPin
  · exact h.dir
  · exact h.load
  · exact h.sweep
  · exact h.nav
  · exact h.comp
  · exact h.pins
  · exact h.drive
  · exact h.hold
  · exact h.slots
  · exact h.sched
  · exact h.touch
  · exact h.zones

end Sys2Proof.Machine
end

