-- ==== Sys2Proof/Laws/Store.lean ====
section
/-! SUPPORT. The sparse store: reading after writing, and that every operation keeps the canonical form. Then
the frames, which are kept in one. -/

namespace Sys2Proof.Machine

variable {α : Type} [DecidableEq α]

/-- What the canonical form says of the store behind its first entry. -/
theorem storeWf_cons (dflt : α) (k : Nat) (v : α) (rest : List (Nat × α)) :
    storeWf dflt ((k, v) :: rest) = true ↔
      v ≠ dflt ∧ storeWf dflt rest = true ∧ ∀ c ∈ rest, k < c.1 := by
  induction rest generalizing k v with
  | nil => simp [storeWf]
  | cons c rest ih =>
    obtain ⟨k', v'⟩ := c
    have h := ih k' v'
    simp only [storeWf, Bool.and_eq_true, decide_eq_true_eq, bne_iff_ne, ne_eq, List.mem_cons,
      forall_eq_or_imp]
    constructor
    · rintro ⟨⟨hk, hv⟩, hw⟩
      exact ⟨hv, hw, hk, fun c hc => Nat.lt_trans hk ((h.mp hw).2.2 c hc)⟩
    · rintro ⟨hv, hw, hk, -⟩
      exact ⟨⟨hk, hv⟩, hw⟩

omit [DecidableEq α] in
/-- An address below every listed one reads as the default. -/
theorem storeRead_below (dflt : α) (m : List (Nat × α)) (a : Nat) (h : ∀ c ∈ m, a < c.1) :
    storeRead dflt m a = dflt := by
  cases m with
  | nil => rfl
  | cons c rest => simp [storeRead, h c (by simp)]

/-- What a write lists is what was listed, or the written cell. -/
theorem mem_storeWrite (dflt : α) (m : List (Nat × α)) (a : Nat) (v : α) (c : Nat × α)
    (h : c ∈ storeWrite dflt m a v) : c ∈ m ∨ (c = (a, v) ∧ v ≠ dflt) := by
  induction m with
  | nil => simp only [storeWrite] at h; split at h <;> simp_all
  | cons d rest ih =>
    obtain ⟨k, w⟩ := d
    simp only [storeWrite] at h
    split at h
    · split at h
      · exact .inl h
      · rcases List.mem_cons.mp h with h | h
        · exact .inr ⟨h, by assumption⟩
        · exact .inl h
    · split at h
      · split at h
        · exact .inl (List.mem_cons_of_mem _ h)
        · rcases List.mem_cons.mp h with h | h
          · exact .inr ⟨h, by assumption⟩
          · exact .inl (List.mem_cons_of_mem _ h)
      · rcases List.mem_cons.mp h with h | h
        · exact .inl (h ▸ List.mem_cons_self)
        · exact (ih h).imp (List.mem_cons_of_mem _) id

/-- A write keeps the canonical form. -/
theorem storeWrite_wf (dflt : α) (m : List (Nat × α)) (a : Nat) (v : α) (h : storeWf dflt m = true) :
    storeWf dflt (storeWrite dflt m a v) = true := by
  induction m with
  | nil => simp only [storeWrite]; split <;> simp_all [storeWf]
  | cons d rest ih =>
    obtain ⟨k, w⟩ := d
    obtain ⟨hw, hrest, hk⟩ := (storeWf_cons dflt k w rest).mp h
    simp only [storeWrite]
    split
    · rename_i hak
      split
      · exact h
      · rename_i hv
        refine (storeWf_cons dflt a v _).mpr ⟨hv, h, fun c hc => ?_⟩
        rcases List.mem_cons.mp hc with rfl | hc
        · exact hak
        · exact Nat.lt_trans hak (hk c hc)
    · split
      · rename_i hak
        split
        · exact hrest
        · rename_i hv; exact (storeWf_cons dflt a v rest).mpr ⟨hv, hrest, hak ▸ hk⟩
      · rename_i hlt hne
        refine (storeWf_cons dflt k w _).mpr ⟨hw, ih hrest, fun c hc => ?_⟩
        rcases mem_storeWrite dflt rest a v c hc with hc | ⟨rfl, -⟩
        · exact hk c hc
        · exact Nat.lt_of_le_of_ne (Nat.not_lt.mp hlt) (Ne.symm hne)

/-- Reading after a write: the written address gives the value, every other one what it gave before. -/
theorem storeRead_storeWrite (dflt : α) (m : List (Nat × α)) (a : Nat) (v : α) (b : Nat)
    (h : storeWf dflt m = true) :
    storeRead dflt (storeWrite dflt m a v) b = if b = a then v else storeRead dflt m b := by
  induction m with
  | nil =>
    simp only [storeWrite]
    split
    · split <;> simp_all [storeRead]
    · simp only [storeRead]; split_ifs <;> first | rfl | omega
  | cons d rest ih =>
    obtain ⟨k, w⟩ := d
    obtain ⟨-, hrest, hk⟩ := (storeWf_cons dflt k w rest).mp h
    have ih := ih hrest
    simp only [storeWrite]
    split
    · split
      · rename_i hak hv
        by_cases hb : b = a
        · subst hb; simp [storeRead, hak, hv]
        · simp [hb]
      · simp only [storeRead]; split_ifs <;> first | rfl | omega
    · split
      · rename_i hlt hak
        subst hak
        split
        · rename_i hv
          by_cases hb : b = a
          · subst hb; simp [storeRead_below dflt rest b hk, hv]
          · simp only [hb, if_false, storeRead]
            split
            · exact storeRead_below dflt rest b fun c hc => Nat.lt_trans (by assumption) (hk c hc)
            · rfl
        · simp only [storeRead]; split_ifs <;> first | rfl | omega
      · simp only [storeRead, ih]; split_ifs <;> first | rfl | omega

/-- Dropping addresses keeps the canonical form. -/
theorem storeDrop_wf (dflt : α) (p : Nat → Bool) (m : List (Nat × α)) (h : storeWf dflt m = true) :
    storeWf dflt (storeDrop p m) = true := by
  induction m with
  | nil => simp [storeDrop, storeWf]
  | cons d rest ih =>
    obtain ⟨k, w⟩ := d
    obtain ⟨hw, hrest, hk⟩ := (storeWf_cons dflt k w rest).mp h
    have ih := ih hrest
    simp only [storeDrop, List.filter_cons] at ih ⊢
    split
    · exact (storeWf_cons dflt k w _).mpr ⟨hw, ih, fun c hc => hk c (List.mem_filter.mp hc).1⟩
    · exact ih

/-- Reading after dropping addresses. -/
theorem storeRead_storeDrop (dflt : α) (p : Nat → Bool) (m : List (Nat × α)) (b : Nat)
    (h : storeWf dflt m = true) :
    storeRead dflt (storeDrop p m) b = if p b = true then dflt else storeRead dflt m b := by
  induction m with
  | nil => simp [storeDrop, storeRead]
  | cons d rest ih =>
    obtain ⟨k, w⟩ := d
    obtain ⟨-, hrest, hk⟩ := (storeWf_cons dflt k w rest).mp h
    have ih := ih hrest
    simp only [storeDrop, List.filter_cons] at ih ⊢
    by_cases hp : p k = true
    · simp only [hp, Bool.not_true, Bool.false_eq_true, if_false, ih]
      by_cases hb : p b = true
      · simp [hb]
      · have hbk : b ≠ k := fun e => hb (e ▸ hp)
        simp only [hb, Bool.false_eq_true, if_false, storeRead]
        split
        · exact storeRead_below dflt rest b fun c hc => Nat.lt_trans (by assumption) (hk c hc)
        · simp
    · simp only [hp, Bool.not_false, if_true, storeRead, ih]
      by_cases hbk : b = k
      · subst hbk; simp [hp]
      · by_cases hlt : b < k
        · simp [hlt]
        · simp [hlt, hbk]

/-! ### Frames -/

/-- Places of different frames have different addresses. -/
theorem frameAddress_inj {i j : Fin 48} {o p : Nat} (ho : o < 1280) (hp : p < 1280) :
    frameAddress i o = frameAddress j p ↔ i = j ∧ o = p := by
  simp only [frameAddress, Config.frameBytes, Fin.ext_iff]
  omega

theorem writeFrame_wf (m : List Host.Cell) (i : Fin 48) (o : Nat) (b : Byte) (h : Memory.wf m = true) :
    Memory.wf (writeFrame m i o b) = true := storeWrite_wf _ _ _ _ h

theorem clearFrame_wf (m : List Host.Cell) (i : Fin 48) (h : Memory.wf m = true) :
    Memory.wf (clearFrame m i) = true := storeDrop_wf _ _ _ h

theorem writeFrameRun_wf (bytes : List Byte) (m : List Host.Cell) (i : Fin 48) (o : Nat)
    (h : Memory.wf m = true) : Memory.wf (writeFrameRun m i o bytes) = true := by
  induction bytes generalizing m o with
  | nil => exact h
  | cons b rest ih => exact ih _ _ (writeFrame_wf m i o b h)

/-- The frames' store is in canonical form at reset. -/
theorem reset_frames_wf : Memory.wf State.reset.dir.frames = true := rfl

/-- Reading a place of a frame after one byte is written. -/
theorem read_writeFrame (m : List Host.Cell) (i j : Fin 48) (o p : Nat) (b : Byte) (ho : o < 1280)
    (hp : p < 1280) (h : Memory.wf m = true) :
    storeRead 0#8 (writeFrame m i o b) (frameAddress j p) =
      if j = i ∧ p = o then b else storeRead 0#8 m (frameAddress j p) := by
  rw [writeFrame, storeRead_storeWrite _ _ _ _ _ h]
  simp only [frameAddress_inj hp ho]

/-- Reading a place of a frame after a frame is cleared. -/
theorem read_clearFrame (m : List Host.Cell) (i j : Fin 48) (p : Nat) (hp : p < 1280)
    (h : Memory.wf m = true) :
    storeRead 0#8 (clearFrame m i) (frameAddress j p) =
      if j = i then 0 else storeRead 0#8 m (frameAddress j p) := by
  rw [clearFrame, storeRead_storeDrop _ _ _ _ h]
  have : (decide (frameAddress i 0 ≤ frameAddress j p) &&
      decide (frameAddress j p < frameAddress i Config.frameBytes)) = true ↔ j = i := by
    rw [Bool.and_eq_true, decide_eq_true_iff, decide_eq_true_iff, Fin.ext_iff]
    simp only [frameAddress, Config.frameBytes]
    omega
  simp only [this]
  rfl

/-- Reading a place of a frame after a run of bytes is written: the bytes of the run at their places, and every
other place as before. -/
theorem read_writeFrameRun (bytes : List Byte) (m : List Host.Cell) (i j : Fin 48) (o p : Nat)
    (ho : o + bytes.length ≤ 1280) (hp : p < 1280) (h : Memory.wf m = true) :
    storeRead 0#8 (writeFrameRun m i o bytes) (frameAddress j p) =
      if j = i ∧ o ≤ p ∧ p < o + bytes.length then bytes.getD (p - o) 0
      else storeRead 0#8 m (frameAddress j p) := by
  induction bytes generalizing m o with
  | nil => simp only [writeFrameRun, List.length_nil]; rw [if_neg]; omega
  | cons b rest ih =>
    simp only [List.length_cons] at ho ⊢
    rw [writeFrameRun, ih _ _ (by omega) (writeFrame_wf m i o b h),
      read_writeFrame m i j o p b (by omega) hp h]
    by_cases hj : j = i
    · simp only [hj, true_and]
      by_cases h1 : p = o
      · subst h1; simp
      · by_cases h2 : o + 1 ≤ p ∧ p < o + 1 + rest.length
        · have h3 : o ≤ p ∧ p < o + (rest.length + 1) := by omega
          rw [if_pos h2, if_pos h3]
          obtain ⟨n, hn⟩ : ∃ n, p - o = n + 1 := ⟨p - o - 1, by omega⟩
          have hn' : p - (o + 1) = n := by omega
          rw [hn, hn']; simp
        · have h3 : ¬ (o ≤ p ∧ p < o + (rest.length + 1)) := by omega
          rw [if_neg h2, if_neg h3, if_neg h1]
    · simp [hj]

end Sys2Proof.Machine
end

