-- ==== Sys2Proof/Laws/Take.lean ====
section
/-! SUPPORT. What taking a buffered command can do, said once: its owner's rule runs, or BAD_LENGTH is answered, or
nothing happens. -/

namespace Sys2Proof.Machine

/-- A frame the part can take is taken. -/
theorem State.Accepts.takes {s : State} {code : Byte} {b : CommandBody} (h : s.Accepts code b) :
    s.takes code b = true := by
  obtain ⟨h1, h2⟩ := h
  rcases h2 with h2 | h2 <;> simp [State.takes, h1, h2]

/-- R181 to R183: an accepted frame of good length runs its owner's rule, and the answer is held. -/
theorem State.take_good {s : State} {code : Byte} {b : CommandBody} (owner : List Byte → State → State × Reply)
    (h : s.Accepts code b) (hl : lengthGood code b = true) :
    s.take code b owner = .next ((owner b.payload s).1.respond code b.tag (owner b.payload s).2) := by
  simp [State.take, h.takes, hl]

/-- R182: an accepted frame of bad length is answered BAD_LENGTH and reaches no block. -/
theorem State.take_badLength {s : State} {code : Byte} {b : CommandBody}
    (owner : List Byte → State → State × Reply) (h : s.Accepts code b) (hl : lengthGood code b = false) :
    s.take code b owner = .next (s.answer code b.tag .badLength []) := by
  simp [State.take, h.takes, hl, State.respond_eq_answer, Reply.bare]

/-- A frame that the part cannot take changes nothing (log entry 3). -/
theorem State.take_turnedAway {s : State} {code : Byte} {b : CommandBody}
    (owner : List Byte → State → State × Reply) (h : s.takes code b = false) :
    s.take code b owner = .next s := by
  simp [State.take, h]

/-- Everything that taking a command can do. -/
theorem State.take_cases {s : State} {code : Byte} {b : CommandBody} (owner : List Byte → State → State × Reply)
    {t : State} (h : s.take code b owner = .next t) :
    (s.takes code b = true ∧ lengthGood code b = true ∧
      t = (owner b.payload s).1.respond code b.tag (owner b.payload s).2) ∨
    (s.takes code b = true ∧ lengthGood code b = false ∧ t = s.answer code b.tag .badLength []) ∨
    (s.takes code b = false ∧ t = s) := by
  unfold State.take at h
  split at h
  · split at h
    · left; injection h with h; simp_all
    · right; left; injection h with h; simp_all [State.respond_eq_answer, Reply.bare]
  · right; right; injection h with h; simp_all

/-- A frame with a right declared length is good when the catalogue allows its length (R182, R185). -/
theorem lengthGood_frameOf {code tag : Byte} {payload : List Byte} (h : payload.length ≤ 300)
    (ha : lengthAllowed code payload.length = true) : lengthGood code (frameOf tag payload) = true := by
  have : payload.length % 65536 = payload.length := Nat.mod_eq_of_lt (by omega)
  simp [lengthGood, frameOf, Config.maxPayload, this, h, ha]

end Sys2Proof.Machine
end

