-- ==== Sys2Proof/Laws/Tells.lean ====
section
/-! SUPPORT. What navigation does when it is told of a key (R74 to R77), from what an evaluation does (R67, R68): a
proof about a row that tells navigation cites these and never unfolds the telling. -/

namespace Sys2Proof.Machine

/-- R63, R66: navigation waits when its condition is not SETTLED. -/
theorem Navigation.waiting_iff (n : Navigation) : n.waiting = true ↔ n.cond ≠ .settled := by
  simp [Navigation.waiting]

/-- R75: what navigation does when a load has ended without a commit. -/
theorem State.loadEnded_tells (s : State) (k : Key) (h : s.Evaluates .nav (s.evaluate .nav)) :
    s.TellsKey k (s.loadEnded k) := by
  unfold State.TellsKey State.loadEnded Navigation.waiting
  by_cases c : s.nav.cond = .settled <;> by_cases w : s.nav.wantedKey = some k <;> simp [c, w, h]

/-- R76: what navigation does when a HELD entry that kept its key, or was retired, is released. -/
theorem State.keyReleased_tells (s : State) (k : Key) (h : s.Evaluates .nav (s.evaluate .nav)) :
    s.TellsKey k (s.keyReleased k) := State.loadEnded_tells s k h

/-- R74: what navigation does when a committed key has become visible. -/
theorem State.keyCommitted_tells (s : State) (k : Key)
    (h : ∀ (locked : Bool) (c : ShownCause), ({ s with nav := { s.nav with missLocked := locked } } : State).Evaluates c
      (({ s with nav := { s.nav with missLocked := locked } } : State).evaluate c)) :
    s.TellsCommitted k (s.keyCommitted k) := by
  refine ⟨_, rfl, ?_⟩
  have same : ({ s with nav := { s.nav with missLocked := s.nav.missLocked } } : State) = s := rfl
  unfold State.keyCommitted Navigation.lockedOn Navigation.waiting
  by_cases c : s.nav.cond = .settled <;> by_cases w : s.nav.wantedKey = some k <;>
    by_cases m : s.nav.missKey = some k <;> cases l : s.nav.missLocked <;>
    simp [c, w, m, State.setNav] <;> first
      | exact (by simpa [l] using same.symm)
      | (have := h false .commit; simp_all)

/-- A telling that evaluates under a test, by any other form of the test. -/
theorem State.told {u : State} {P : Prop} [Decidable P] (b : Bool) (h : u.Evaluates .nav (u.evaluate .nav))
    (same : b = true ↔ P) :
    if P then u.Evaluates .nav (if b then u.evaluate .nav else u) else (if b then u.evaluate .nav else u) = u := by
  by_cases p : P
  · simpa [p, same.mpr p] using h
  · simp [p, mt same.mp p]

/-- R77: what navigation does when a sweep visit has moved an entry. -/
theorem State.keyMoved_tells (s : State) (old new : Key) (shown : Bool)
    (h : ∀ n : Navigation, ({ s with nav := n } : State).Evaluates .nav (({ s with nav := n } : State).evaluate .nav)) :
    s.TellsMoved old new shown (s.keyMoved old new shown) := by
  refine ⟨_, rfl, ?_⟩
  unfold State.keyMoved
  simp only
  generalize hv : (if shown then s.setNav { s.nav with shownKey := some new, document := new.doc } else s) = v
  have u : (if v.nav.lockedOn new then v.setNav { v.nav with missLocked := false } else v) =
      ({ s with nav := { s.nav with
        shownKey := if shown then some new else s.nav.shownKey
        document := if shown then new.doc else s.nav.document
        missLocked := s.nav.missLocked && decide (s.nav.missKey ≠ some new) } } : State) := by
    subst hv
    obtain ⟨_, _, _, _, _, _, _, ⟨_, _, _, _, _, mk, ml, _⟩, _, _, _, _, _⟩ := s
    cases shown <;> cases ml <;> by_cases m : mk = some new <;> simp [Navigation.lockedOn, State.setNav, m]
  have l : v.nav.lockedOn new = (s.nav.missLocked && decide (s.nav.missKey = some new)) := by
    subst hv
    cases shown <;> simp [Navigation.lockedOn, State.setNav, Bool.beq_eq_decide_eq]
  rw [u]
  refine State.told _ (h _) ?_
  rw [l]
  have d : s.nav.document = new.doc ↔ new.doc = s.nav.document := eq_comm
  cases s.nav.missLocked <;> cases shown <;> simp [Navigation.waiting, or_assoc, d]

end Sys2Proof.Machine
end

