-- ==== Sys2Proof/Laws/Visits.lean ====
section
/-! SUPPORT. How far the visits of the Row Calendar go in one event: what a move that goes on does to the calendar, and that
a sound calendar brings every line into the quiet set within 4000 moves from the end of a visit, so that the bound on the
moves is never met (log entry 18). -/

namespace Sys2Proof.Machine

/-! ### A move that goes on -/

/-- R155, R158, R159: the calendar after a move with no plan found and no settling. -/
def Calendar.tick (c : Calendar) (band : Fin 8) : Calendar :=
  match c.visit with
  | none => c.beginVisit band
  | some v =>
    if v.row = 3 then
      { c with visit := none, quiet := if v.started then c.quiet else joinQuiet c.quiet v.line }.passTurn
    else { c with visit := some { v with row := v.row + 1, strokes := 0 } }

/-- A row that is asked without a plan found leaves the calendar and the reading band as they are. -/
theorem State.askDrive_none {s t : State} {r : Fin 128} (h : s.askDrive r = (t, false)) :
    t.cal = s.cal ∧ t.touch.band = s.touch.band := by
  have b := (PinPath.reportDeferred s r).touch
  have c : (s.reportDeferred r).cal = s.cal := rfl
  unfold State.askDrive at h
  simp only at h
  split at h
  · injection h with h _
    subst h
    exact ⟨c, by simp only [State.setDrive]; rw [b]⟩
  · simp at h

/-- R158, R159: a row that is done without settling. -/
theorem State.rowDone_true {s t : State} {v : LineVisit} (hv : s.cal.visit = some v) (h : s.rowDone v = (t, true)) :
    t.cal = s.cal.tick s.touch.band ∧ t.touch = s.touch ∧
      (v.row = 3 → v.started = false → t.cal.quiet.length ≠ 32) := by
  unfold State.rowDone at h
  by_cases e : v.row = 3
  · generalize hq : (if v.started then s.cal.quiet else joinQuiet s.cal.quiet v.line) = quiet
    have f := (Calendar.passTurn_frame { s.cal with visit := none, quiet := quiet }).2.2.2.2
    simp only [e, if_true, State.endVisit, hq] at h
    simp only [Calendar.tick, hv, e, if_true, hq]
    split at h
    · simp at h
    · rename_i q
      injection h with h _
      subst h
      exact ⟨rfl, rfl, fun _ hs hl => q ⟨hs, (congrArg List.length f).symm.trans hl⟩⟩
  · simp only [e, if_false] at h
    injection h with h _
    subst h
    simp only [Calendar.tick, hv, e, if_false]
    exact ⟨rfl, rfl, fun x => absurd x id⟩

/-- A move that goes on ticks the calendar; when it ends a visit in which no stroke started, the quiet set is not yet
full. -/
theorem State.calendarMove_true {s t : State} (h : s.calendarMove = (t, true)) :
    t.cal = s.cal.tick s.touch.band ∧ t.touch.band = s.touch.band ∧
      ∀ v, s.cal.visit = some v → v.row = 3 → v.started = false → t.cal.quiet.length ≠ 32 := by
  unfold State.calendarMove at h
  split at h
  · rename_i e
    injection h with h _
    subst h
    refine ⟨?_, rfl, fun v hv => by rw [e] at hv; simp at hv⟩
    simp [Calendar.tick, e]
  · rename_i v e
    split at h
    · simp at h
    · rename_i u hu
      obtain ⟨hc, hb⟩ := State.askDrive_none hu
      have hv : u.cal.visit = some v := by rw [hc]; exact e
      obtain ⟨h1, h2, h3⟩ := State.rowDone_true hv h
      refine ⟨by rw [h1, hc, hb], by rw [h2, hb], fun w hw => ?_⟩
      rw [e] at hw
      injection hw with hw
      subst hw
      exact h3

/-! ### The lines that the visits reach -/

/-- The calendar after a number of moves that go on. -/
def Calendar.ticks (c : Calendar) (band : Fin 8) : Nat → Calendar
  | 0 => c
  | n + 1 => Calendar.ticks (c.tick band) band n

theorem Calendar.ticks_add (c : Calendar) (band : Fin 8) (m n : Nat) :
    c.ticks band (m + n) = (c.ticks band m).ticks band n := by
  induction m generalizing c with
  | zero => simp [Calendar.ticks]
  | succ m ih => rw [Nat.add_right_comm]; exact ih _

/-- R159: a line that is in the quiet set stays there. -/
theorem Calendar.mem_quiet_tick {c : Calendar} {band : Fin 8} {l : Fin 32} (h : l ∈ c.quiet) :
    l ∈ (c.tick band).quiet := by
  unfold Calendar.tick
  split
  · exact h
  · split
    · rw [(Calendar.passTurn_frame _).2.2.2.2]
      simp only
      split
      · exact h
      · unfold joinQuiet; split
        · exact h
        · exact List.mem_append_left _ h
    · exact h

theorem Calendar.mem_quiet_ticks {c : Calendar} {band : Fin 8} {l : Fin 32} (n : Nat) (h : l ∈ c.quiet) :
    l ∈ (c.ticks band n).quiet := by
  induction n generalizing c with
  | zero => exact h
  | succ n ih => exact ih (Calendar.mem_quiet_tick h)

/-- The calendar after a whole visit that starts no stroke. -/
def Calendar.quietVisit (c : Calendar) (band : Fin 8) : Calendar :=
  Calendar.passTurn { c.beginVisit band with
    visit := none, quiet := joinQuiet c.quiet (((c.slots[c.current]?).map CalendarSlot.cursor).getD 0) }

/-- Five moves that go on make a whole visit. -/
theorem Calendar.ticks_visit {c : Calendar} {band : Fin 8} (h : c.visit = none) :
    c.ticks band 5 = c.quietVisit band := by
  simp [Calendar.ticks, Calendar.tick, h, Calendar.beginVisit, Calendar.quietVisit]

/-- How many of its slot's visits come before the one of line `l`. -/
def CalendarSlot.away (sl : CalendarSlot) (l : Nat) : Nat :=
  if sl.cursor.val ≤ l then l - sl.cursor.val else (sl.last - sl.cursor.val) + 1 + (l - sl.first)

/-- A bound on the visits of other slots before the turn of slot `i`. -/
def Calendar.turns (c : Calendar) (i : Nat) : Nat :=
  if c.current = i then 0
  else c.visitsLeft + 8 * ((if c.current < i then i - c.current else i + c.slots.length - c.current) - 1)

/-- R153 to R155: slot `i` reaches line `l`, and the calendar is in its ranges. -/
structure Calendar.Reaches (c : Calendar) (i : Nat) (sl : CalendarSlot) (l : Nat) : Prop where
  slot : c.slots[i]? = some sl
  fixed : sl.follow = false
  range : sl.first ≤ l ∧ l ≤ sl.last ∧ sl.last ≤ 31
  cursor : sl.first ≤ sl.cursor.val ∧ sl.cursor.val ≤ sl.last
  counts : ∀ x ∈ c.slots, 1 ≤ x.count ∧ x.count ≤ 8
  length : c.slots.length ≤ 4
  current : c.current < c.slots.length
  left : 1 ≤ c.visitsLeft ∧ c.visitsLeft ≤ 8
  idle : c.visit = none

/-- R155: the next line of a slot that follows no band. -/
theorem CalendarSlot.nextCursor_fixed {sl : CalendarSlot} {band : Fin 8} (hf : sl.follow = false)
    (h1 : sl.first ≤ sl.cursor.val) (h2 : sl.cursor.val ≤ sl.last) (h3 : sl.last ≤ 31) :
    (sl.nextCursor band).val = if sl.cursor.val < sl.last then sl.cursor.val + 1 else sl.first := by
  unfold CalendarSlot.nextCursor CalendarSlot.range
  simp only [hf, Bool.false_eq_true, if_false, h1, true_and, Fin.ofNat]
  split
  · exact Nat.mod_eq_of_lt (by omega)
  · exact Nat.mod_eq_of_lt (by omega)

/-- A whole quiet visit brings the line into the quiet set, or brings its visit nearer. -/
theorem Calendar.Reaches.next {c : Calendar} {i : Nat} {sl : CalendarSlot} {l : Fin 32} (band : Fin 8)
    (h : c.Reaches i sl l.val) :
    l ∈ (c.quietVisit band).quiet ∨ ∃ sl', (c.quietVisit band).Reaches i sl' l.val ∧
      25 * sl'.away l.val + (c.quietVisit band).turns i < 25 * sl.away l.val + c.turns i := by
  obtain ⟨hs, hf, ⟨r1, r2, r3⟩, ⟨k1, k2⟩, hc, hl, hcur, ⟨v1, v2⟩, hi⟩ := h
  obtain ⟨cur, hcg⟩ : ∃ cur, c.slots[c.current]? = some cur := ⟨_, List.getElem?_eq_getElem hcur⟩
  have hil : i < c.slots.length := by
    rcases Nat.lt_or_ge i c.slots.length with h | h
    · exact h
    · rw [List.getElem?_eq_none h] at hs; simp at hs
  generalize hm : c.slots.modify c.current (fun sl => { sl with cursor := sl.nextCursor band }) = slots'
  have hlen : slots'.length = c.slots.length := by rw [← hm]; simp
  have hcounts : ∀ x ∈ slots', 1 ≤ x.count ∧ x.count ≤ 8 := by
    intro x hx
    rw [← hm] at hx
    obtain ⟨j, hj⟩ := List.getElem?_of_mem hx
    rw [List.getElem?_modify] at hj
    cases hy : c.slots[j]? with
    | none => rw [hy] at hj; simp at hj
    | some y =>
      have := hc y (List.mem_of_getElem? hy)
      rw [hy] at hj
      by_cases e : c.current = j
      · simp [e] at hj; rw [← hj]; exact this
      · simp [e] at hj; rw [← hj]; exact this
  have hq : c.quietVisit band = Calendar.passTurn { c with
      slots := slots', visitsLeft := c.visitsLeft - 1, visit := none, quiet := joinQuiet c.quiet cur.cursor } := by
    unfold Calendar.quietVisit Calendar.beginVisit
    simp [hcg, hm]
  -- the slot's record afterwards
  obtain ⟨sl', hs', hfix, hran, hcur', haway⟩ : ∃ sl', slots'[i]? = some sl' ∧ sl'.follow = false ∧
      (sl'.first ≤ l.val ∧ l.val ≤ sl'.last ∧ sl'.last ≤ 31) ∧
      (sl'.first ≤ sl'.cursor.val ∧ sl'.cursor.val ≤ sl'.last) ∧
      (if c.current = i then sl.cursor.val = l.val ∨ sl'.away l.val + 1 = sl.away l.val
        else sl'.away l.val = sl.away l.val) := by
    rw [← hm, List.getElem?_modify, hs]
    by_cases e : c.current = i
    · refine ⟨{ sl with cursor := sl.nextCursor band }, by simp [e], hf, ⟨r1, r2, r3⟩, ?_, ?_⟩
      · simp only [CalendarSlot.nextCursor_fixed hf k1 k2 r3]
        split <;> omega
      · simp only [e, if_true, CalendarSlot.away, CalendarSlot.nextCursor_fixed hf k1 k2 r3]
        repeat' split
        all_goals omega
    · exact ⟨sl, by simp [e], hf, ⟨r1, r2, r3⟩, ⟨k1, k2⟩, by simp [e]⟩
  by_cases hhit : c.current = i ∧ sl.cursor.val = l.val
  · left
    rw [hq, (Calendar.passTurn_frame _).2.2.2.2]
    have : cur = sl := by rw [hhit.1, hs] at hcg; exact (Option.some.inj hcg).symm
    have hl : cur.cursor = l := by rw [this]; exact Fin.ext hhit.2
    simp only [joinQuiet, hl]
    split
    · rename_i h; simpa using h
    · simp
  · right
    refine ⟨sl', ?_⟩
    rw [hq]
    unfold Calendar.passTurn
    by_cases hz : c.visitsLeft - 1 = 0
    · simp only [hz, if_true, hlen]
      generalize hn : (if c.current + 1 < c.slots.length then c.current + 1 else 0) = next
      have hnl : next < c.slots.length := by rw [← hn]; split <;> omega
      obtain ⟨nx, hnx⟩ : ∃ nx, slots'[next]? = some nx := ⟨_, List.getElem?_eq_getElem (by omega)⟩
      have hnc := hcounts nx (List.mem_of_getElem? hnx)
      simp only [hnx, Option.map_some, Option.getD_some]
      refine ⟨⟨hs', hfix, hran, hcur', hcounts, by simp only; omega, by simp only; omega, by simp only; omega, rfl⟩, ?_⟩
      simp only [Calendar.turns, hlen]
      by_cases e : c.current = i
      · simp only [e, if_true] at haway ⊢
        have : sl'.away l.val + 1 = sl.away l.val := by
          rcases haway with h | h
          · exact absurd ⟨e, h⟩ hhit
          · exact h
        split <;> (try split) <;> omega
      · simp only [e, if_false] at haway ⊢
        have hn' : next = if c.current + 1 < c.slots.length then c.current + 1 else 0 := hn.symm
        split <;> split <;> (try split) <;> (split at hn') <;> omega
    · simp only [hz, if_false]
      refine ⟨⟨hs', hfix, hran, hcur', hcounts, by simp only; omega, by simp only; omega, by simp only; omega, rfl⟩, ?_⟩
      simp only [Calendar.turns, hlen]
      by_cases e : c.current = i
      · simp only [e, if_true] at haway ⊢
        have : sl'.away l.val + 1 = sl.away l.val := by
          rcases haway with h | h
          · exact absurd ⟨e, h⟩ hhit
          · exact h
        omega
      · simp only [e, if_false] at haway ⊢
        omega

/-- A calendar that reaches a line has it in the quiet set after as many whole visits as its measure says. -/
theorem Calendar.Reaches.quiet {i : Nat} {l : Fin 32} {band : Fin 8} (n : Nat) :
    ∀ {c : Calendar} {sl : CalendarSlot}, c.Reaches i sl l.val → 25 * sl.away l.val + c.turns i < n →
      l ∈ (c.ticks band (5 * n)).quiet := by
  induction n with
  | zero => intro c sl _ h; omega
  | succ n ih =>
    intro c sl h hn
    rw [Nat.mul_succ, Nat.add_comm, Calendar.ticks_add, Calendar.ticks_visit h.idle]
    rcases h.next band with hq | ⟨sl', h', hlt⟩
    · exact Calendar.mem_quiet_ticks _ hq
    · exact ih h' (by omega)

/-- R155, R159: from the end of a visit, a sound calendar whose visits start no stroke has every line in its quiet set
after 4000 moves. -/
theorem Calendar.Reaches.quiet_all {c : Calendar} {i : Nat} {sl : CalendarSlot} {l : Fin 32} (band : Fin 8)
    (h : c.Reaches i sl l.val) : l ∈ (c.ticks band 4000).quiet := by
  refine Calendar.Reaches.quiet (band := band) 800 h ?_
  have h1 : sl.away l.val ≤ 31 := by
    have := h.range; have := h.cursor
    unfold CalendarSlot.away
    split <;> omega
  have h2 : c.turns i ≤ 24 := by
    have := h.length; have := h.current; have := h.left
    have hil : i < c.slots.length := by
      rcases Nat.lt_or_ge i c.slots.length with hh | hh
      · exact hh
      · have := h.slot; rw [List.getElem?_eq_none hh] at this; simp at this
    unfold Calendar.turns
    split
    · omega
    · split <;> omega
  omega

end Sys2Proof.Machine
end

