-- ==== Sys2Proof/Tests/Slice0.lean ====
section
/-! SUPPORT. Tests: the well-formedness checks, what single rows do on small states (each expected value is read
from the rule it names), and for every statement with hypotheses a state and operands that meet them. -/

section

set_option Elab.async false

open Sys2Proof Sys2Proof.Machine

/-! ### Small states -/

/-- The state after a row. -/
def Testing.after (c : Instr) (s : State) : State :=
  match exec c s with
  | .next t => t
  | .fault _ => s
  | .refused _ => s

/-- The status and payload of the response that a row leaves. -/
def Testing.answerTo (c : Instr) (s : State) : Option (Status × List Byte) :=
  (Testing.after c s).link.response.map fun r => (r.status, r.payload)

/-- A row answers a next state of which `p` holds. -/
def Testing.gives (c : Instr) (s : State) (p : State → Bool) : Bool :=
  match exec c s with
  | .next t => p t
  | .fault _ => false
  | .refused _ => false

theorem Testing.next_of_gives {c : Instr} {s : State} {p : State → Prop} [DecidablePred p]
    (h : Testing.gives c s (fun t => decide (p t)) = true) : ∃ t, exec c s = .next t ∧ p t := by
  unfold Testing.gives at h
  split at h
  · rename_i t ht
    exact ⟨t, ht, of_decide_eq_true h⟩
  · exact absurd h (by decide)
  · exact absurd h (by decide)

/-- A state with entry `i` replaced. -/
def Testing.withEntry (s : State) (i : Fin 48) (e : Entry) : State :=
  { s with dir := { s.dir with entries := s.dir.entries.set i e } }

/-- A page of document 1 in a state, of revision 3, with marks. -/
def Testing.page (st : EntryState) (p : BitVec 16) (marks : List Mark) : Entry :=
  { Entry.free with state := st, key := some ⟨1, p⟩, revision := 3, marks := marks }

/-- A bookmark of the patron on line 0. -/
def Testing.ribbon : Mark := ⟨.bookmark, .patron, 0, 0, 40⟩

/-- A supplied highlight on cells 38 and 39 of line 31. -/
def Testing.highlight : Mark := ⟨.highlight, .supplied, 31, 38, 2⟩

/-- A load of page 6 of document 1 into entry 2, with its stream at a place. -/
def Testing.loading (position : Nat) : LoadSlot where
  complete := false
  entry := 2
  key := ⟨1, 6⟩
  kind := .text
  condition := .any
  offset := position
  position := position
  text := .plain
  openMark := none
  dropped := 0

/-- Entry 0 is SHOWN with page 5 and a patron bookmark, entry 1 is READY with page 7 and two marks, in the queue, and
slot 0 loads page 6 into entry 2. -/
def Testing.shelf : State :=
  let s := Testing.withEntry (Testing.withEntry (Testing.withEntry State.reset 0
    (Testing.page .shown 5 [Testing.ribbon])) 1 (Testing.page .ready 7 [Testing.highlight, Testing.ribbon])) 2
    { Testing.page .loading 6 [] with revision := 0, slot := some 0 }
  { s with
    dir := { s.dir with queue := [1] }
    load := { s.load with slots := #v[some (Testing.loading 0), none] }
    nav := { s.nav with document := 1, shownKey := some ⟨1, 5⟩, wanted := some 5 } }

/-- The shelf with every target composed. -/
def Testing.composed : State := Testing.shelf.recompose allLines

theorem test_shelf_pages : Testing.shelf.PagesAgree :=
  ⟨by decide +kernel, by decide +kernel, by decide +kernel, by decide +kernel, by decide +kernel, by decide +kernel⟩

theorem test_composed_image : Testing.composed.ImageComposed := by decide +kernel

/-- The shelf with the READY page 7 under a running sweep that retires it. -/
def Testing.swept : State :=
  let s := Testing.withEntry Testing.shelf 1 { Testing.page .ready 7 [Testing.highlight, Testing.ribbon] with held := true }
  { s with sweep := some ⟨⟨none, 6, 9, 0, 0, 0, true, none, none, none, none⟩, 1, 1, 0, 0, 0⟩ }

/-- A full store: page i of document 0 in entry i, READY, entry 0 under a sweep, all others pinned or none. -/
def Testing.fullStore (pinned : Bool) : State :=
  { State.reset with
    dir := { State.reset.dir with
      entries := Vector.ofFn fun i : Fin 48 =>
        { Entry.free with
          state := .ready
          key := some ⟨0, BitVec.ofNat 16 i.val⟩
          revision := 1
          pinned := pinned && i != 0
          held := i == 0 }
      queue := if pinned then [0] else List.finRange 48 }
    sweep := some ⟨⟨none, 0, 0, 0, 0, 0, true, none, none, none, none⟩, 0, 1, 0, 0, 0⟩ }

/-- A plan of row 124 that raises pins 0 and 79, pin 0 in a second attempt. -/
def Testing.plan : Plan := ⟨.drive, 124, [⟨0, .boost, true⟩, ⟨79, .firm, true⟩], 32, 12⟩

/-- Every row known, pins 0 and 79 of row 124 to be raised, DRIVING in a visit of line 31. -/
def Testing.driving (cond : DriveCondition) (level : Nat) : State :=
  { State.reset with
    comp := { State.reset.comp with target := State.reset.comp.target.set 124 (1 ||| 1 <<< 79) }
    pins := { State.reset.pins with known := Vector.replicate 128 true, attempts := [(80 * 124, 2)] }
    drive := { State.reset.drive with cond := cond, level := level }
    cal := { State.reset.cal with sched := .driving, visit := some ⟨31, 0, 0, true⟩ } }

/-- Every row known and nothing to move: IDLE. -/
def Testing.idle : State :=
  { State.reset with
    pins := { State.reset.pins with known := Vector.replicate 128 true }
    drive := { State.reset.drive with cond := .noPlan }
    cal := { State.reset.cal with sched := .idle } }

/-- A frame of a command with no payload. -/
def Testing.bare : CommandBody := frameOf 9 []

theorem test_swept_pages : Testing.swept.PagesAgree :=
  ⟨by decide +kernel, by decide +kernel, by decide +kernel, by decide +kernel, by decide +kernel, by decide +kernel⟩

/-! ### Which terms stand for an event -/

theorem test_status_byte_has_three_bits : (Instr.writeCommand 8 []).wellFormed = false := by decide
theorem test_status_byte_of_seven : (Instr.writeCommand 7 []).wellFormed = true := by decide
theorem test_status_only_with_bytes_is_ill_formed : (Instr.statusOnlyTransaction 2 1).wellFormed = false := by decide
theorem test_unknown_transaction_code : (Instr.statusOnlyTransaction 4 9).wellFormed = true := by decide
theorem test_known_code_is_no_unknown_command : (Instr.unknownCommand 0x7F Testing.bare).wellFormed = false := by decide
theorem test_unknown_code : (Instr.unknownCommand 0x7E Testing.bare).wellFormed = true := by decide

/-! ### Witnesses: the block and its link -/

theorem test_witness_EveryCommandIsAnswered :
    commandRow 0x23 (frameOf 7 [1, 7, 0, 0, 0, 0]) = some (.retire (frameOf 7 [1, 7, 0, 0, 0, 0])) ∧
    Testing.shelf.Accepts 0x23 (frameOf 7 [1, 7, 0, 0, 0, 0]) ∧ (0#8 ∉ catalogueCodes) ∧
    ({ State.reset with link := { State.reset.link with buffer := some ⟨0, Testing.bare⟩ } }).Accepts 0 Testing.bare ∧
    Testing.shelf.MarksSound ∧ Testing.shelf.PinsSound :=
  ⟨by decide, by decide +kernel, by decide, by decide +kernel, by decide +kernel, by decide +kernel⟩

theorem test_witness_WrongFramesReachNoBlock :
    State.reset.Accepts 0x15 Testing.bare ∧ 0x15#8 ∉ catalogueCodes ∧
    commandRow 0x13 ⟨7, 301, [0]⟩ = some (.cancelLoad ⟨7, 301, [0]⟩) ∧ 300 < (301#16).toNat ∧
    commandRow 0x13 ⟨7, 0, [0]⟩ = some (.cancelLoad ⟨7, 0, [0]⟩) ∧ (0#16).toNat ≠ [0#8].length ∧
    commandRow 0x13 (frameOf 7 [0, 0]) = some (.cancelLoad (frameOf 7 [0, 0])) ∧ ¬ LengthListed 0x13 2 ∧
    LengthListed 0x11 257 ∧ ¬ LengthListed 0x11 258 ∧ ¬ LengthListed 0x12 3 ∧ (0x12#8 ∈ catalogueCodes) := by
  decide +kernel

theorem test_witness_RefusedCommandsChangeNothing :
    commandRow 0x11 (frameOf 7 [1, 65]) = some (.data (frameOf 7 [1, 65])) ∧
    Testing.shelf.Accepts 0x11 (frameOf 7 [1, 65]) ∧
    ∃ t, exec (.data (frameOf 7 [1, 65])) Testing.shelf = .next t ∧
      t.link.response = some ⟨7, 0x11, .slotState, []⟩ :=
  ⟨by decide, by decide +kernel, Testing.next_of_gives (by decide +kernel)⟩

theorem test_witness_AssertedResetPinHoldsThePart :
    ({ State.reset with resetPin := true }).resetPin = true ∧
    Instr.sweepVisit.isTransaction = false ∧ Instr.sweepVisit.isPinEdge = false ∧
    (Instr.readNotice 3 = .readResponse 3 ∨ Instr.readNotice 3 = .readNotice 3 ∨
      ∃ code, Instr.readNotice 3 = .statusOnlyTransaction code 3) :=
  ⟨rfl, rfl, rfl, .inr (.inl rfl)⟩

theorem test_witness_TransactionsCarryTheirFrames_write :
    State.reset.resetPin = false ∧ State.reset.link.MayHaveShown 0 ∧ (0#8).getLsbD 2 = false ∧
    [0x7F#8, 1, 0].length < 4 ∧ ¬ State.reset.link.MayHaveShown 1 ∧ ¬ State.reset.link.MayHaveShown 4 ∧
    (Testing.after (.resetCommand Testing.bare) State.reset).resetPin = false ∧
    (Testing.after (.resetCommand Testing.bare) State.reset).link.MayHaveShown 6 ∧ (6#8).getLsbD 2 = true :=
  ⟨rfl, ⟨fun k _ => by simp, fun h => absurd rfl h, fun h => absurd h (by decide), fun _ => rfl,
      fun h => absurd h (by decide)⟩, rfl, by decide, fun h => absurd (h.ready (.inl rfl)) (by decide),
    fun h => h.answered rfl rfl rfl, by decide +kernel,
    ⟨fun k hk => by
      rcases Nat.lt_or_ge k 8 with h | h
      · interval_cases k <;> rfl
      · exact BitVec.getLsbD_of_ge _ _ h, fun h => absurd (by decide +kernel) h, fun _ _ => by decide +kernel,
      fun h => h.elim (fun h => absurd h (by decide)) (fun h => absurd (by decide +kernel) h),
      fun _ => .inr ⟨rfl, by decide +kernel, by decide +kernel⟩⟩, rfl⟩

theorem test_witness_TransactionsCarryTheirFrames_read :
    Testing.shelf.resetPin = false ∧ Testing.shelf.link.response = none ∧ Testing.shelf.link.notices = [] ∧
    (Testing.after (.retire (frameOf 7 [1, 7, 0, 0, 0, 0])) Testing.shelf).resetPin = false ∧
    (Testing.after (.retire (frameOf 7 [1, 7, 0, 0, 0, 0])) Testing.shelf).link.response =
      some ⟨7, 0x23, .ok, [1, 3, 0]⟩ ∧ (Status.ok, 0#8) ∈ [(Status.ok, 0#8)] ∧
    (Testing.after (.abortSweep Testing.bare) Testing.swept).resetPin = false ∧
    (Testing.after (.abortSweep Testing.bare) Testing.swept).link.notices = [.sweepDone 1 0 0 0 true] ∧
    (Testing.after .supplyFall State.reset).link.notices.head? = some (.drive .supplyLow .low) := by
  decide +kernel

/-- A state whose queue holds the given notices, SHOWN being masked. -/
def Testing.noticed (q : List Notice) : State :=
  { State.reset with link := { State.reset.link with notices := q, mask := 8 } }

theorem test_witness_PostingsMergeOrAppend :
    (Testing.noticed []).link.mask.getLsbD ((Notice.shown ⟨1, 5⟩ .nav).kindCode - 1) = true ∧
    (Testing.noticed []).link.mask.getLsbD ((Notice.key 0 0 0 0 1).kindCode - 1) = false ∧
    (Testing.noticed [.miss ⟨0, 0⟩, .key 15 0 0 0 1]).NoticesDistinct ∧
    (Testing.noticed [.miss ⟨0, 0⟩, .key 15 0 0 0 1]).link.notices = [.miss ⟨0, 0⟩] ++ .key 15 0 0 0 1 :: [] ∧
    (Testing.noticed [.pinFault 255 true]).NoticesDistinct ∧
    (Testing.noticed [.pinFault 255 true]).link.notices = [] ++ .pinFault 255 true :: [] ∧
    (Notice.pinFault 255 true).subject = (Notice.pinFault 1 false).subject ∧
    (∀ o ∈ (Testing.noticed [.streamFault 0 .timeout 5]).link.notices,
      ¬ (o.kindCode = (Notice.streamFault 1 .timeout 5).kindCode ∧ o.subject = (Notice.streamFault 1 .timeout 5).subject)) := by
  decide +kernel

theorem test_witness_LookupNamesTheEntry :
    Testing.shelf.PagesAgree ∧ Testing.shelf.dir.lookup ⟨1, 5⟩ = .visible 0 ∧
    Testing.shelf.dir.lookup ⟨1, 6⟩ = .loading (some 0) ∧ Testing.shelf.dir.lookup ⟨2, 5⟩ = .absent ∧
    Testing.swept.PagesAgree ∧ Testing.swept.dir.lookup ⟨1, 7⟩ = .held 1 :=
  ⟨test_shelf_pages, by decide +kernel, by decide +kernel, by decide +kernel, test_swept_pages, by decide +kernel⟩

/-! ### Witnesses: loads -/

/-- The shelf with the load of slot 0 replaced. -/
def Testing.loads (r : LoadSlot) : State :=
  { Testing.shelf with load := { Testing.shelf.load with slots := #v[some r, none] } }

/-- The shelf with slot 0 loading a new revision of page p. -/
def Testing.reloads (p : BitVec 16) (c : CommitCondition) : State :=
  Testing.withEntry (Testing.loads { Testing.loading 3 with key := ⟨1, p⟩, condition := c }) 2
    { Testing.page .loading p [] with revision := 0, slot := some 0 }

/-- The shelf with navigation waiting for the load of page 6. -/
def Testing.waiting : State :=
  { Testing.shelf with nav := { Testing.shelf.nav with wanted := some 6, cond := .waitLoad } }

theorem test_waiting_pages : Testing.waiting.PagesAgree :=
  ⟨by decide +kernel, by decide +kernel, by decide +kernel, by decide +kernel, by decide +kernel, by decide +kernel⟩

/-- The arguments of an OPEN LOAD at the ends of their ranges. -/
def Testing.openArgs : OpenArgs := ⟨⟨15, 0xFFFF⟩, .raw, 15, true, .ifRevision 0xFFFF⟩

theorem test_witness_OpenLoadTakesAnEntry_free :
    Testing.shelf.Accepts 0x10 (frameOf 7 (Testing.openArgs.bytes 0 0)) ∧ Memory.wf Testing.shelf.dir.frames = true ∧
    (∀ j : Fin 2, ∀ r ∈ Testing.shelf.load.slots[j], r.key ≠ Testing.openArgs.key) ∧
    LeastIndex (fun j : Fin 2 => Testing.shelf.load.slots[j] = none) 1 ∧
    LeastIndex (fun j : Fin 48 => Testing.shelf.dir.entries[j].state = .free) 3 := by decide +kernel

theorem test_witness_OpenLoadTakesAnEntry_reclaimed :
    (Testing.fullStore false).Accepts 0x10 (frameOf 7 (Testing.openArgs.bytes 0 0)) ∧
    Memory.wf (Testing.fullStore false).dir.frames = true ∧
    (∀ j : Fin 2, ∀ r ∈ (Testing.fullStore false).load.slots[j], r.key ≠ Testing.openArgs.key) ∧
    LeastIndex (fun j : Fin 2 => (Testing.fullStore false).load.slots[j] = none) 0 ∧
    (∀ j : Fin 48, (Testing.fullStore false).dir.entries[j].state ≠ .free) ∧
    (Testing.fullStore false).dir.queue = [0] ++ 1 :: (List.finRange 48).drop 2 ∧
    (∀ j ∈ [(0 : Fin 48)], (Testing.fullStore false).dir.entries[j].held = true) ∧
    (Testing.fullStore false).dir.entries[(1 : Fin 48)].held = false ∧
    (Testing.fullStore false).dir.entries[(1 : Fin 48)].key = some ⟨0, 1⟩ := by decide +kernel

/-- Both slots in use. -/
def Testing.twoLoads : State :=
  { Testing.shelf with load := { Testing.shelf.load with
    slots := #v[some (Testing.loading 0), some { Testing.loading 0 with entry := 3, key := ⟨1, 8⟩ }] } }

theorem test_witness_OpenLoadRefusals :
    State.reset.Accepts 0x10 (frameOf 7 [16, 0, 0, 2, 16, 2, 0, 0, 0]) ∧
    16 ≤ (16#8).toNat ∧ 2 ≤ (2#8).toNat ∧ (0#8 ≠ 1 ∧ 0#8 ≠ 2 ∧ 0#8 ≠ 3) ∧ (4#8 ≠ 1 ∧ 4#8 ≠ 2 ∧ 4#8 ≠ 3) ∧
    Testing.shelf.Accepts 0x10 (frameOf 7 (OpenArgs.bytes ⟨⟨1, 6⟩, .text, 0, false, .any⟩ 0 0)) ∧
    (∃ j : Fin 2, ∃ r ∈ Testing.shelf.load.slots[j], r.key = ⟨1, 6⟩) ∧
    (∀ j : Fin 2, ∃ r ∈ Testing.twoLoads.load.slots[j], r.key ≠ ⟨1, 9⟩) ∧
    (∀ j : Fin 2, ∀ r ∈ (Testing.fullStore true).load.slots[j], r.key ≠ Testing.openArgs.key) ∧
    (∃ j : Fin 2, (Testing.fullStore true).load.slots[j] = none) ∧
    (∀ j : Fin 48, (Testing.fullStore true).dir.entries[j].state ≠ .free) ∧
    (∀ j ∈ (Testing.fullStore true).dir.queue, (Testing.fullStore true).dir.entries[j].held = true) :=
  ⟨by decide, by decide, by decide, by decide, by decide, by decide +kernel, ⟨0, Testing.loading 0, rfl, rfl⟩,
    fun j => match j with
      | 0 => ⟨_, rfl, by decide⟩
      | 1 => ⟨_, rfl, by decide⟩,
    by decide +kernel, by decide +kernel, by decide +kernel, by decide +kernel⟩

theorem test_witness_DataFillsTheFrame_cells :
    (Testing.loads (Testing.loading 1024)).Accepts 0x11 (frameOf 7 (put8 0 :: List.replicate 256 65)) ∧
    Memory.wf (Testing.loads (Testing.loading 1024)).dir.frames = true ∧
    (Testing.loads (Testing.loading 1024)).load.slots[(0 : Fin 2)] = some (Testing.loading 1024) ∧
    (Testing.loading 1024).complete = false ∧ (Testing.loading 1024).position < 1280 ∧
    (Testing.loading 1024).text = .plain ∧ (Testing.loading 1024).openMark = none ∧
    (Testing.loads (Testing.loading 1024)).load.escape ∉ List.replicate 256 (65 : Byte) ∧
    (List.replicate 256 (65 : Byte)).length ≤ 256 ∧ 256 = min (List.replicate 256 (65 : Byte)).length (1280 - 1024) ∧
    (Testing.loads { Testing.loading 1279 with kind := .raw }).load.slots[(0 : Fin 2)] =
      some { Testing.loading 1279 with kind := .raw } ∧
    ((Testing.loading 1279).kind = .raw → (Testing.loading 1279).openMark = none) ∧
    1 ≤ [(0xFF : Byte), 1].length ∧ 1 = min [(0xFF : Byte), 1].length (1280 - 1279) := by decide +kernel

theorem test_witness_DataFillsTheFrame_controls :
    (Testing.loads (Testing.loading 1279)).Accepts 0x11 (frameOf 7 (put8 0 :: [0xFF, 0x12, 255, 65])) ∧
    (Testing.loads (Testing.loading 1279)).load.slots[(0 : Fin 2)] = some (Testing.loading 1279) ∧
    (Testing.loading 1279).kind = .text ∧ (Testing.loading 1279).position < 1280 ∧
    (Testing.loads (Testing.loading 1279)).load.escape = 0xFF ∧ 0x12#8 ≠ 0xFF ∧
    actionOf Testing.shelf.load.codes.toList 0x12 = some .repeatCell ∧
    actionOf Testing.shelf.load.codes.toList 0x13 = some .skip ∧
    actionOf Testing.shelf.load.codes.toList 0x0D = some .lineEnd ∧
    actionOf Testing.shelf.load.codes.toList 0x0C = some .pageEnd ∧
    (List.replicate 254 (0 : Byte)).length ≤ 254 := by decide +kernel

theorem test_witness_DataLaysAnInlineMark :
    (Testing.loads (Testing.loading 1278)).Accepts 0x11
      (frameOf 7 (put8 0 :: [0xFF, 0x1C, put8 MarkClass.find.code] ++ [65] ++ [0xFF, 0x1D])) ∧
    Memory.wf (Testing.loads (Testing.loading 1278)).dir.frames = true ∧
    (Testing.loads (Testing.loading 1278)).load.slots[(0 : Fin 2)] = some (Testing.loading 1278) ∧
    (Testing.loading 1278).complete = false ∧ (Testing.loading 1278).kind = .text ∧
    (Testing.loading 1278).text = .plain ∧ (Testing.loading 1278).openMark = none ∧
    Testing.shelf.load.escape = 0xFF ∧ 0x1C#8 ≠ 0xFF ∧ 0x1D#8 ≠ 0xFF ∧ (0xFF : Byte) ∉ [(65 : Byte), 66] ∧
    actionOf Testing.shelf.load.codes.toList 0x1C = some .markOpen ∧
    actionOf Testing.shelf.load.codes.toList 0x1D = some .markClose ∧
    (Testing.loading 1278).position / 40 = (31 : Fin 32).val ∧
    (Testing.loading 1278).position % 40 + [(65 : Byte)].length < 40 ∧
    40 ≤ (Testing.loading 1278).position % 40 + [(65 : Byte), 66].length ∧
    (Testing.loading 1278).position + [(65 : Byte), 66].length ≤ 1280 ∧ [(65 : Byte), 66].length ≤ 250 := by
  decide +kernel

/-- R36: the four outcomes of an offer: recorded, already there, of no cell, and on a full list. -/
theorem test_offered_marks :
    offered [Testing.ribbon] 0 Testing.highlight = ([Testing.ribbon, Testing.highlight], 0) ∧
    offered [Testing.ribbon] 0 Testing.ribbon = ([Testing.ribbon], 0) ∧
    offered [] 0 { Testing.highlight with length := 0 } = ([], 0) ∧
    offered (List.replicate 8 Testing.ribbon) 254 Testing.highlight = (List.replicate 8 Testing.ribbon, 255) ∧
    offered (List.replicate 8 Testing.ribbon) 255 Testing.highlight = (List.replicate 8 Testing.ribbon, 255) := by
  decide +kernel

/-- A run that ends with an error, one that completes the slot, and one that ends in the middle of an element. -/
theorem test_witness_DataIsDecodedByteByByte :
    (Testing.loads (Testing.loading 1279)).load.slots[(0 : Fin 2)] = some (Testing.loading 1279) ∧
    (Testing.loading 1279).complete = false ∧ (Testing.loads (Testing.loading 1279)).resetPin = false ∧
    (Testing.loads (Testing.loading 1279)).link.buffer = none ∧
    ((Testing.after (.data (frameOf 7 (put8 0 :: [0xFF, 0xFE]))) (Testing.loads (Testing.loading 1279))).link.response.map
      Response.status) = some .streamFault ∧
    ((Testing.after (.data (frameOf 7 (put8 0 :: [65, 66]))) (Testing.loads (Testing.loading 1279))).load.slots[
      (0 : Fin 2)].map LoadSlot.complete) = some true ∧
    (Testing.after (.data (frameOf 7 (put8 0 :: [0xFF, 0x12, 3]))) (Testing.loads
      (Testing.loading 1279))).load.slots[(0 : Fin 2)] =
      some { Testing.loading 1279 with offset := 1282, text := .repeatPattern 3 } := by decide +kernel

theorem test_witness_BrokenStreamEndsItsLoad :
    (Testing.loads { Testing.loading 3 with text := .escape }).Accepts 0x11 (frameOf 7 [put8 0, 0xFE]) ∧
    (Testing.loads { Testing.loading 3 with text := .escape }).load.slots[(0 : Fin 2)] =
      some { Testing.loading 3 with text := .escape } ∧
    (∀ c ∈ consulted Testing.shelf.load.codes.toList, c.code ≠ some (0xFE : Byte)) ∧ 0xFE#8 ≠ Testing.shelf.load.escape ∧
    (Testing.loads { Testing.loading 3 with text := .markClass }).load.slots[(0 : Fin 2)] =
      some { Testing.loading 3 with text := .markClass } ∧
    4 ≤ (4#8).toNat ∧ (List.replicate 255 (0 : Byte)).length ≤ 255 := by decide +kernel

theorem test_witness_LoadsEndWithoutCommit :
    Testing.waiting.PagesAgree ∧ Testing.shelf.load.slots[(0 : Fin 2)] = some (Testing.loading 0) ∧
    Testing.shelf.load.slots[(1 : Fin 2)] = none ∧
    Testing.shelf.Accepts 0x13 (frameOf 7 [put8 0]) ∧ Testing.shelf.resetPin = false ∧
    Testing.waiting.nav.cond = .waitLoad ∧
    Testing.waiting.nav.wantedKey = some (Testing.loading 0).key ∧
    Testing.waiting.dir.visibleEntry (Testing.loading 0).key = none ∧
    Testing.waiting.load.slots[(0 : Fin 2)] = some (Testing.loading 0) ∧
    Testing.waiting.Accepts 0x13 (frameOf 7 [put8 0]) := ⟨test_waiting_pages, by decide +kernel⟩

theorem test_witness_CommitPlacesANewPage :
    (∀ v, (some CommitCondition.newOnly).getD (Testing.loading 0).condition ≠ .ifRevision v) ∧
    (∀ v, (none : Option CommitCondition).getD (Testing.loading 0).condition ≠ .ifRevision v) ∧
    Testing.shelf.Accepts 0x12 (frameOf 7 (put8 0 :: CommitCondition.newOnly.bytes 9 9)) ∧
    Testing.shelf.load.slots[(0 : Fin 2)] = some (Testing.loading 0) ∧
    Testing.shelf.dir.visibleEntry (Testing.loading 0).key = none ∧
    Testing.shelf.dir.entries[(Testing.loading 0).entry].state = .loading ∧
    (Testing.loading 0).entry ∉ Testing.shelf.dir.queue ∧ Testing.shelf.nav.cond = .settled ∧
    Testing.waiting.load.slots[(0 : Fin 2)] = some (Testing.loading 0) ∧ Testing.waiting.nav.cond ≠ .settled ∧
    Testing.waiting.nav.wantedKey = some (Testing.loading 0).key :=
  ⟨fun _ h => CommitCondition.noConfusion h, fun _ h => CommitCondition.noConfusion h, by decide +kernel⟩

theorem test_witness_CommitReplacesThePage :
    (Testing.reloads 7 .any).Accepts 0x12 (frameOf 7 [put8 0]) ∧
    (Testing.reloads 7 .any).load.slots[(0 : Fin 2)] =
      some { Testing.loading 3 with key := ⟨1, 7⟩, condition := .any } ∧
    (Testing.reloads 7 .any).dir.visibleEntry ⟨1, 7⟩ = some 1 ∧
    (Testing.reloads 7 .any).dir.entries[(1 : Fin 48)].held = false ∧
    (Testing.reloads 7 .any).dir.entries[(1 : Fin 48)].state = .ready ∧
    (Testing.reloads 7 .any).dir.entries[(2 : Fin 48)].state = .loading ∧
    (2 : Fin 48) ∉ (Testing.reloads 7 .any).dir.queue ∧
    ((Testing.reloads 7 .any).dir.entries[(1 : Fin 48)].marks.filter fun m => m.owner == .patron) = [Testing.ribbon] ∧
    (Testing.reloads 5 (.ifRevision 3)).dir.visibleEntry ⟨1, 5⟩ = some 0 ∧
    (some (CommitCondition.ifRevision 3)) =
      some (.ifRevision (Testing.reloads 5 (.ifRevision 3)).dir.entries[(0 : Fin 48)].revision) ∧
    (Testing.reloads 5 (.ifRevision 3)).dir.entries[(0 : Fin 48)].state = .shown ∧
    (Testing.reloads 5 (.ifRevision 3)).dir.entries[(2 : Fin 48)].state = .loading := by decide +kernel

theorem test_witness_CommitShowsTheWantedPage :
    Testing.waiting.Accepts 0x12 (frameOf 7 [put8 0]) ∧ Testing.waiting.PagesAgree ∧
    Testing.waiting.load.slots[(0 : Fin 2)] = some (Testing.loading 0) ∧ (Testing.loading 0).openMark = none ∧
    Testing.waiting.dir.visibleEntry (Testing.loading 0).key = none ∧
    (∀ v, (Testing.loading 0).condition ≠ .ifRevision v) ∧ Testing.waiting.nav.cond ≠ .settled ∧
    Testing.waiting.nav.wantedKey = some (Testing.loading 0).key :=
  ⟨by decide +kernel, test_waiting_pages, by decide +kernel, rfl, by decide +kernel,
    fun _ h => CommitCondition.noConfusion h, by decide, by decide⟩

theorem test_witness_CommitRefusals :
    State.reset.Accepts 0x12 (frameOf 7 [put8 1]) ∧ State.reset.load.slots[(1 : Fin 2)] = none ∧
    Testing.shelf.load.slots[(0 : Fin 2)] = some (Testing.loading 0) ∧
    Testing.shelf.dir.visibleEntry (Testing.loading 0).key = none ∧
    CommitCondition.ifRevision 0 = (some (CommitCondition.ifRevision 0)).getD (Testing.loading 0).condition ∧
    (Testing.reloads 7 .newOnly).dir.visibleEntry ⟨1, 7⟩ = some 1 ∧
    (Testing.reloads 7 (.ifRevision 4)).dir.entries[(1 : Fin 48)].held = false ∧
    (Testing.reloads 7 (.ifRevision 4)).dir.entries[(1 : Fin 48)].revision ≠ 4 ∧
    (Testing.withEntry (Testing.reloads 7 .any) 1 { Testing.page .ready 7 [] with held := true }).dir.visibleEntry
      ⟨1, 7⟩ = some 1 ∧
    (Testing.withEntry (Testing.reloads 7 .any) 1
      { Testing.page .ready 7 [] with held := true }).dir.entries[(1 : Fin 48)].held = true := by decide +kernel

/-! ### Witnesses: settings -/

/-- R30, R184: the default table as it may be sent: ignored bits set, and an entry after its end that names no action. -/
def Testing.codeTable : List Byte :=
  [0x0D, 0xFD, 0, 0x0C, 1, 1, 0x12, 1, 2, 0x13, 1, 3] ++ [0x1C, 1, 4, 0x1D, 3, 5, 0x55, 0xFC, 0, 0x66, 0, 6]

/-- What it spells. -/
def Testing.codes : Vector ControlEntry 8 := defaultCodes.set 7 ⟨none, none, false⟩

theorem test_codes_spelt :
    SpellsCodes Testing.codeTable Testing.codes ∧
    SpellsCodes ([1, 3, 6] ++ Testing.codeTable.drop 3) (Testing.codes.set 0 ⟨some 1, none, true⟩) ∧
    SpellsCodes ([0x0C, 1, 0] ++ Testing.codeTable.drop 3) (Testing.codes.set 0 ⟨some 0x0C, some .lineEnd, false⟩) := by
  decide +kernel

/-- R30: entry 5 is the first with the end flag; without one all 8 are consulted. -/
theorem test_witness_SettingsAreTaken_consulted :
    LeastIndex (fun j : Fin 8 => Testing.codes[j].last = true) 5 ∧ (consulted Testing.codes.toList).length = 6 ∧
    (∀ j : Fin 8, (Testing.codes.set 5 ⟨some 1, some .skip, false⟩)[j].last = false) ∧
    (consulted (Testing.codes.set 5 ⟨some 1, some .skip, false⟩).toList).length = 8 ∧
    ((consulted Testing.codes.toList).filterMap ControlEntry.code).Nodup := by decide +kernel

/-- R47: it is stored as it is spelt. -/
theorem test_codes_stored :
    (Testing.after (.setControlCodes (frameOf 7 (0xFE :: Testing.codeTable))) State.reset).load.codes = Testing.codes ∧
    (Testing.after (.setControlCodes (frameOf 7 (0xFE :: Testing.codeTable))) State.reset).load.escape = 0xFE := by
  decide +kernel

theorem test_witness_SettingsAreTaken :
    State.reset.Accepts 0x14 (frameOf 7 (0xFF :: Testing.codeTable)) ∧
    (∀ c ∈ consulted Testing.codes.toList, c.action ≠ none ∧ c.code ≠ some (0xFF : Byte)) ∧
    ((consulted Testing.codes.toList).filterMap ControlEntry.code).Nodup ∧
    (∀ j : Fin 2, State.reset.load.slots[j] = none) ∧
    State.reset.Accepts 0x3A (frameOf 7 [putBool true]) ∧
    State.reset.Accepts 0x60 (frameOf 7 (putNat16 1000 ++ putNat16 999 ++ [put8 16])) ∧
    State.reset.Accepts 0x60 (frameOf 7 (putNat16 16 ++ putNat16 1 ++ [put8 1])) ∧
    State.reset.Accepts 0x70 (frameOf 7 (put16 ((0x1FF#9).setWidth 16))) ∧
    State.reset.Accepts 0x50 (frameOf 7 [put8 8, put8 20, put8 1, put8 0]) ∧
    (∀ p ∈ State.reset.drive.cond.waiting, p.kind ≠ .drive) ∧
    State.reset.Accepts 0x48 (frameOf 7 (put8 2 :: ([⟨0, 0, 1, true, 0⟩, ⟨0, 31, 8, false, 0⟩] : List CalendarSlot).flatMap
      (fun c => [put8 c.first, put8 c.last, put8 c.count, putBool c.follow]) ++ List.replicate 8 0)) ∧
    1 + 1 ≤ 4 ∧ 4 * (1 + 1) + (List.replicate 8 (0 : Byte)).length = 16 ∧
    (∀ c ∈ ([⟨0, 31, 8, false, 0⟩] : List CalendarSlot), c.follow = false) ∧
    (∀ c ∈ ([⟨0, 0, 1, true, 0⟩, ⟨0, 31, 8, false, 0⟩] : List CalendarSlot),
      1 ≤ c.count ∧ c.count ≤ 8 ∧ c.first < 256 ∧ c.last < 256 ∧
      (c.follow = false → c.first ≤ c.last ∧ c.last ≤ 31 ∧ c.cursor.val = c.first) ∧
      (c.follow = true → c.cursor = firstLineOfBand State.reset.touch.band)) ∧
    (∀ l : Fin 32, ∃ c ∈ ([⟨0, 0, 1, true, 0⟩, ⟨0, 31, 8, false, 0⟩] : List CalendarSlot),
      c.follow = false ∧ c.first ≤ l.val ∧ l.val ≤ c.last) := by decide +kernel

theorem test_witness_SettingsOutOfRangeAreRefused_codes :
    State.reset.Accepts 0x14 (frameOf 7 (0x0D :: Testing.codeTable)) ∧
    (∃ c ∈ consulted Testing.codes.toList, c.action = none ∨ c.code = some (0x0D : Byte)) ∧
    (∃ c ∈ consulted (Testing.codes.set 0 ⟨some 1, none, true⟩).toList, c.action = none ∨ c.code = some (0 : Byte)) ∧
    ¬ ((consulted (Testing.codes.set 0 ⟨some 0x0C, some .lineEnd, false⟩).toList).filterMap ControlEntry.code).Nodup ∧
    Testing.shelf.Accepts 0x14 (frameOf 7 (0xFF :: Testing.codeTable)) ∧
    (∀ c ∈ consulted Testing.codes.toList, c.action ≠ none ∧ c.code ≠ some (0xFF : Byte)) ∧
    ((consulted Testing.codes.toList).filterMap ControlEntry.code).Nodup ∧
    (∃ j : Fin 2, Testing.shelf.load.slots[j] ≠ none) := by decide +kernel

theorem test_witness_SettingsOutOfRangeAreRefused :
    State.reset.Accepts 0x3A (frameOf 7 [2]) ∧ 2 ≤ (2#8).toNat ∧
    State.reset.Accepts 0x60 (frameOf 7 (put16 15 ++ put16 1 ++ [1])) ∧
    ((15#16).toNat < 16 ∧ 1000 < (1001#16).toNat ∧ 999 < (1000#16).toNat ∧ (60#16).toNat ≤ (60#16).toNat ∧
      16 < (17#8).toNat) ∧
    State.reset.Accepts 0x70 (frameOf 7 (put16 512)) ∧ 512 ≤ (512#16).toNat ∧
    State.reset.Accepts 0x50 (frameOf 7 [7, 60, 12, 2]) ∧
    ((7#8).toNat < 8 ∧ 32 < (33#8).toNat ∧ (19#8).toNat < 20 ∧ 200 < (201#8).toNat ∧ 20 < (21#8).toNat ∧
      4 < (5#8).toNat) ∧
    State.reset.Accepts 0x48 (frameOf 7 (1 :: [0, 30, 1, 0] ++ List.replicate 12 0)) ∧
    ([0, 30, 1, 0] ++ List.replicate 12 (0 : Byte)).length = 16 ∧ 4 < (5#8).toNat ∧
    (∃ l, l < 32 ∧ ∀ j, j < (1#8).toNat → ([0, 30, 1, 0] ++ List.replicate 12 (0 : Byte)).getD (4 * j + 3) 0 = 0 →
      ¬ ((([0, 30, 1, 0] ++ List.replicate 12 (0 : Byte)).getD (4 * j) 0).toNat ≤ l ∧
        l ≤ (([0, 30, 1, 0] ++ List.replicate 12 (0 : Byte)).getD (4 * j + 1) 0).toNat)) ∧
    (∃ j, j < (2#8).toNat ∧ (([0, 31, 9, 0, 0, 0, 1, 1] : List Byte).getD (4 * j + 2) 0 = 0 ∨
      8 < (([0, 31, 9, 0, 0, 0, 1, 1] : List Byte).getD (4 * j + 2) 0).toNat ∨
      (([0, 31, 9, 0, 0, 0, 1, 1] : List Byte).getD (4 * j + 3) 0 = 1 ∧ j ≠ 0))) := by decide +kernel

/-! ### Witnesses: reports and conditions -/

theorem test_witness_ReportsReadTheState :
    Testing.shelf.PagesAgree ∧ Testing.shelf.Accepts 0x20 (frameOf 7 (putKey ⟨1, 5⟩)) ∧
    Testing.shelf.dir.visibleEntry ⟨1, 5⟩ = some 0 ∧ Testing.shelf.dir.visibleEntry ⟨1, 6⟩ = none ∧
    Testing.shelf.load.slots[(0 : Fin 2)] = some (Testing.loading 0) ∧ (Testing.loading 0).key = ⟨1, 6⟩ ∧
    (∀ i : Fin 48, Testing.shelf.dir.entries[i].key ≠ some ⟨2, 5⟩) ∧
    Testing.shelf.Accepts 0x21 (frameOf 7 [put8 0, put8 48]) ∧ Testing.shelf.MarksSound ∧
    (47 < (48#8).toNat ∧ 48 < (47#8).toNat + (2#8).toNat) ∧
    Testing.shelf.Accepts 0x5A (frameOf 7 [put8 127]) ∧ 128 ≤ (128#8).toNat := ⟨test_shelf_pages, by decide +kernel⟩

/-- R16: of a FREE entry, of the LOADING entry with its own slot, and of the READY one. -/
theorem test_summaries :
    (Testing.answerTo (.listEntries (frameOf 7 [47, 1])) Testing.shelf).map (fun a => (a.2.take 4, a.2.drop 6)) =
      some ([1, 47, 0, 0xFF], [0, 0, 0, 0, 0, 0, 0xFF, 0]) ∧
    (Testing.answerTo (.listEntries (frameOf 7 [2, 1])) Testing.shelf).map (fun a => a.2) =
      some [1, 2, 1, 1, 6, 0, 0, 0, 0, 0, 0, 0, 0, 0] ∧
    Testing.shelf.dir.entries[(47 : Fin 48)].state = .free := by decide +kernel

/-- A full fault table. -/
def Testing.allFaults : State :=
  { State.reset with pins := { State.reset.pins with
    faults := (List.finRange 64).map fun i => ⟨⟨i.val, by omega⟩, 79, i == 63⟩ } }

theorem test_witness_ReadFaultsListsTheTable :
    Testing.allFaults.Accepts 0x58 (frameOf 7 []) ∧ Testing.allFaults.PinsSound ∧
    Testing.allFaults.pins.faults.length = 64 := by decide +kernel

theorem test_witness_ReadStatusReportsTheGroups :
    Testing.swept.Accepts 0x71 (frameOf 7 []) ∧ Testing.swept.nav.shownKey = some ⟨1, 5⟩ ∧
    Testing.swept.nav.missKey = none ∧ Testing.swept.load.slots[(0 : Fin 2)] = some (Testing.loading 0) ∧
    Testing.swept.load.slots[(1 : Fin 2)] = none ∧ Testing.swept.sweep.isSome = true ∧
    Testing.twoLoads.load.slots[(1 : Fin 2)].isSome = true ∧ State.reset.nav.shownKey = none ∧
    State.reset.sweep = none := by decide +kernel

/-- A frame of a command that a statement on its arguments speaks of. -/
abbrev Testing.Asks (code : Byte) (payload : List Byte) : Prop :=
  (commandRow code (frameOf 7 payload)).isSome = true ∧ lengthAllowed code payload.length = true ∧
    State.reset.Accepts code (frameOf 7 payload)

/-- The first value out of range of each argument. -/
theorem test_witness_ArgumentsAreChecked :
    Testing.Asks 0x20 [16, 0, 0] ∧ Testing.Asks 0x38 [16, 0, 0] ∧
    Testing.Asks 0x22 [1, 5, 0, 0, 0, 0, 32, 40, 65] ∧ 40 < 39 + ([1, 5, 0, 0, 0, 0, 31, 39, 65, 66].length - 8) ∧
    Testing.Asks 0x23 [16, 5, 0, 0, 0, 0] ∧ Testing.Asks 0x24 [1, 5, 0, 2, 16] ∧
    Testing.Asks 0x28 [1, 5, 0, 0, 0, 0, 4, 32, 40, 0] ∧ 40 < 39 + 2 ∧
    Testing.Asks 0x29 [1, 5, 0, 0, 0, 0, 16, 4, 32] := by
  decide +kernel

/-- The same for the loads, with the slots that are not in the state needed. -/
theorem test_witness_ArgumentsAreChecked_loads :
    Testing.Asks 0x11 [2, 65] ∧ Testing.Asks 0x12 [2] ∧ Testing.Asks 0x12 [0, 4, 0, 0] ∧ 4 ∉ [1, 2, 3] ∧ 0 ∉ [1, 2, 3] ∧
    Testing.Asks 0x13 [2] ∧ Testing.Asks 0x11 [1, 65] ∧ State.reset.load.slots[(1 : Fin 2)] = none ∧
    Testing.Asks 0x13 [1] ∧
    (Testing.loads { Testing.loading 1280 with complete := true }).load.slots[(0 : Fin 2)] =
      some { Testing.loading 1280 with complete := true } := by
  decide +kernel

theorem test_witness_ArgumentsAreChecked_open :
    Testing.Asks 0x30 [2, 16, 1, 0, 0, 0, 16, 16, 16, 0, 0, 0, 0, 0, 0] ∧
    Testing.Asks 0x30 [0, 0, 0, 0, 0, 0, 0, 0, 0, 30, 2, 16, 16, 4, 16] ∧ (30 / 2 % 2 = 1 ∧ 30 / 16 % 2 = 1) := by
  decide +kernel

theorem test_witness_ConditionsAreChecked :
    0x23#8 ∈ [0x22#8, 0x23#8, 0x28#8, 0x29#8] ∧
    commandRow 0x23 (frameOf 7 (1 :: 7 :: 0 :: 2 :: [0, 0])) = some (.retire (frameOf 7 (1 :: 7 :: 0 :: 2 :: [0, 0]))) ∧
    lengthAllowed 0x23 ([0#8, 0].length + 4) = true ∧
    Testing.shelf.Accepts 0x23 (frameOf 7 (1 :: 7 :: 0 :: 2 :: [0, 0])) ∧ 2#8 ≠ 0 ∧ 2#8 ≠ 1 :=
  ⟨by decide, by decide, by decide, by decide +kernel, by decide, by decide⟩

/-! ### Witnesses: entries and marks -/

/-- The shelf with the READY page 7 a RAW page. -/
def Testing.rawShelf : State := Testing.withEntry Testing.shelf 1 { Testing.page .ready 7 [] with kind := .raw }

theorem test_witness_EntryCommandsCheckInOrder :
    EntryCommand 0x23 ⟨1, 5⟩ (.ifRevision 4) (putKey ⟨1, 5⟩ ++ (Condition.ifRevision 4).bytes 0 0) ∧
    EntryCommand 0x22 ⟨1, 7⟩ .unconditional
      (putKey ⟨1, 7⟩ ++ Condition.unconditional.bytes 0 0 ++ [put8 (31 : Fin 32).val, put8 39] ++ [65]) ∧
    commandRow 0x23 (frameOf 7 (putKey ⟨1, 5⟩ ++ (Condition.ifRevision 4).bytes 0 0)) =
      some (.retire (frameOf 7 (putKey ⟨1, 5⟩ ++ (Condition.ifRevision 4).bytes 0 0))) ∧
    Testing.shelf.Accepts 0x23 (frameOf 7 (putKey ⟨1, 5⟩ ++ (Condition.ifRevision 4).bytes 0 0)) ∧
    State.reset.dir.visibleEntry ⟨1, 5⟩ = none ∧
    Testing.shelf.dir.visibleEntry ⟨1, 5⟩ = some 0 ∧ Testing.shelf.dir.entries[(0 : Fin 48)].state = .shown ∧
    Testing.shelf.dir.entries[(0 : Fin 48)].held = false ∧
    Testing.shelf.dir.visibleEntry ⟨1, 7⟩ = some 1 ∧ Testing.shelf.dir.entries[(1 : Fin 48)].held = false ∧
    Testing.shelf.dir.entries[(1 : Fin 48)].state ≠ .shown ∧ Testing.shelf.dir.entries[(1 : Fin 48)].revision ≠ 4 ∧
    Testing.swept.dir.visibleEntry ⟨1, 7⟩ = some 1 ∧ Testing.swept.dir.entries[(1 : Fin 48)].held = true ∧
    Testing.rawShelf.dir.visibleEntry ⟨1, 7⟩ = some 1 ∧ Testing.rawShelf.dir.entries[(1 : Fin 48)].kind = .raw :=
  ⟨.retire _ _ 0 0, .patch _ _ 0 0 31 39 [65] (by decide) (by decide), by decide +kernel⟩

theorem test_witness_PatchCellsWritesTheLine :
    Testing.shelf.Accepts 0x22 (frameOf 7 (putKey ⟨1, 5⟩ ++ (Condition.ifRevision 3).bytes 0 0 ++
      [put8 (31 : Fin 32).val, put8 39] ++ [65])) ∧
    Memory.wf Testing.shelf.dir.frames = true ∧ [(65 : Byte)] ≠ [] ∧ 39 + [(65 : Byte)].length ≤ 40 ∧
    Testing.shelf.dir.visibleEntry ⟨1, 5⟩ = some 0 ∧ Testing.shelf.dir.entries[(0 : Fin 48)].kind = .text ∧
    Testing.shelf.dir.entries[(0 : Fin 48)].held = false ∧
    (Condition.ifRevision 3).holds Testing.shelf.dir.entries[(0 : Fin 48)].revision = true ∧
    Testing.shelf.dir.entries[(0 : Fin 48)].state = .shown ∧
    Testing.shelf.dir.visibleEntry ⟨1, 7⟩ = some 1 ∧ Testing.shelf.dir.entries[(1 : Fin 48)].state ≠ .shown := by
  decide +kernel

theorem test_witness_RetireAndSetEntry :
    Testing.shelf.PagesAgree ∧ Testing.shelf.dir.visibleEntry ⟨1, 7⟩ = some 1 ∧
    Testing.shelf.dir.entries[(1 : Fin 48)].held = false ∧
    Testing.shelf.Accepts 0x23 (frameOf 7 (putKey ⟨1, 7⟩ ++ Condition.unconditional.bytes 0 0)) ∧
    Testing.shelf.dir.entries[(1 : Fin 48)].state = .ready ∧
    Condition.unconditional.holds Testing.shelf.dir.entries[(1 : Fin 48)].revision = true ∧
    Testing.shelf.Accepts 0x24 (frameOf 7 (putKey ⟨1, 7⟩ ++ [putBool true, (15#4).setWidth 8])) :=
  ⟨test_shelf_pages, by decide +kernel⟩

/-- The shelf with eight marks on page 5. -/
def Testing.markedShelf : State :=
  Testing.withEntry Testing.shelf 0 (Testing.page .shown 5
    ((List.finRange 8).map fun i => ⟨.find, .supplied, ⟨i.val, by omega⟩, 0, 40⟩))

theorem test_witness_AddMarkAppends :
    Testing.shelf.Accepts 0x28 (frameOf 7 (putKey ⟨1, 7⟩ ++ Condition.unconditional.bytes 0 0 ++
      [put8 MarkClass.highlight.code, put8 (31 : Fin 32).val, put8 38, put8 2])) ∧
    Testing.highlight.owner = .supplied ∧ Testing.highlight.InLine ∧
    Testing.shelf.dir.visibleEntry ⟨1, 7⟩ = some 1 ∧ Testing.shelf.dir.entries[(1 : Fin 48)].held = false ∧
    Condition.unconditional.holds Testing.shelf.dir.entries[(1 : Fin 48)].revision = true ∧
    Testing.highlight ∈ Testing.shelf.dir.entries[(1 : Fin 48)].marks ∧
    Testing.shelf.dir.visibleEntry ⟨1, 5⟩ = some 0 ∧ Testing.shelf.dir.entries[(0 : Fin 48)].state = .shown ∧
    Testing.highlight ∉ Testing.shelf.dir.entries[(0 : Fin 48)].marks ∧
    Testing.shelf.dir.entries[(0 : Fin 48)].marks.length < 8 ∧
    Testing.markedShelf.dir.visibleEntry ⟨1, 5⟩ = some 0 ∧
    Testing.highlight ∉ Testing.markedShelf.dir.entries[(0 : Fin 48)].marks ∧
    8 ≤ Testing.markedShelf.dir.entries[(0 : Fin 48)].marks.length := by decide +kernel

theorem test_witness_DropMarksRemovesTheMatching :
    Testing.shelf.Accepts 0x29 (frameOf 7 (putKey ⟨1, 5⟩ ++ Condition.unconditional.bytes 0 0 ++
      [(2#4).setWidth 8, (2#2).setWidth 8, putIndexOr ((none : Option (Fin 32)).map Fin.val)])) ∧
    Testing.shelf.dir.visibleEntry ⟨1, 5⟩ = some 0 ∧ Testing.shelf.dir.entries[(0 : Fin 48)].held = false ∧
    Condition.unconditional.holds Testing.shelf.dir.entries[(0 : Fin 48)].revision = true ∧
    Testing.shelf.dir.entries[(0 : Fin 48)].state = .shown ∧
    Testing.shelf.dir.entries[(0 : Fin 48)].marks.filter (fun m => decide ((2#4).getLsbD m.cls.code = true ∧
      (2#2).getLsbD m.owner.code = true ∧ ∀ l ∈ (none : Option (Fin 32)), m.line = l)) = [Testing.ribbon] ∧
    Testing.shelf.dir.entries[(0 : Fin 48)].marks.filter (fun m => decide ((2#4).getLsbD m.cls.code = true ∧
      (2#2).getLsbD m.owner.code = true ∧ ∀ l ∈ some (31 : Fin 32), m.line = l)) = [] := by decide +kernel

/-! ### Witnesses: sweeps -/

/-- A sweep of every visible page of a document in a range of pages, with chosen actions. -/
def Testing.order (retire : Bool) (move : Option (BitVec 4)) : SweepDescriptor :=
  ⟨some 1, 5, 7, 0, 0, 0, retire, none, none, if retire then none else some (2, 2), move⟩

/-- The shelf with entry `i` and no other held, the sweep standing on it. -/
def Testing.sweeping (d : SweepDescriptor) (i : Fin 48) : State :=
  { Testing.withEntry Testing.shelf i { Testing.shelf.dir.entries[i] with held := true } with
    sweep := some ⟨d, i, 1, 0, 0, 0⟩ }

theorem test_witness_SweepFreezesTheMatching :
    (Testing.order true none).Valid ∧ (Testing.order false (some 15)).Valid ∧
    Testing.shelf.Accepts 0x30 (frameOf 7 (Testing.order true none).bytes) ∧ Testing.shelf.sweep = none ∧
    (Testing.order true none).Takes Testing.shelf.dir.entries[(0 : Fin 48)] ∧
    ¬ (Testing.order true none).Takes Testing.shelf.dir.entries[(2 : Fin 48)] ∧
    Testing.swept.Accepts 0x30 (frameOf 7 (Testing.order true none).bytes) ∧ Testing.swept.sweep ≠ none := by
  decide +kernel

theorem test_sweeping_pages (i : Fin 2) :
    (Testing.sweeping (Testing.order true none) ⟨i.val, by omega⟩).PagesAgree ∧
    (Testing.sweeping (Testing.order false (some 15)) ⟨i.val, by omega⟩).PagesAgree := by
  match i with
  | 0 => exact ⟨⟨by decide +kernel, by decide +kernel, by decide +kernel, by decide +kernel, by decide +kernel,
      by decide +kernel⟩, ⟨by decide +kernel, by decide +kernel, by decide +kernel, by decide +kernel,
      by decide +kernel, by decide +kernel⟩⟩
  | 1 => exact ⟨⟨by decide +kernel, by decide +kernel, by decide +kernel, by decide +kernel, by decide +kernel,
      by decide +kernel⟩, ⟨by decide +kernel, by decide +kernel, by decide +kernel, by decide +kernel,
      by decide +kernel, by decide +kernel⟩⟩

theorem test_witness_SweepVisitsOneEntry_passes :
    State.reset.resetPin = false ∧ State.reset.sweep = none ∧
    (∃ r, ({ Testing.swept with sweep := some ⟨Testing.order true none, 47, 1, 1, 0, 0⟩ } : State).sweep = some r ∧
      Testing.swept.dir.entries[r.progress].held = false) := ⟨rfl, rfl, _, rfl, by decide +kernel⟩

theorem test_witness_SweepVisitsOneEntry_retires :
    (Testing.sweeping (Testing.order true none) 0).PagesAgree ∧ (Testing.sweeping (Testing.order true none) 1).PagesAgree ∧
    (Testing.sweeping (Testing.order true none) 0).sweep = some ⟨Testing.order true none, 0, 1, 0, 0, 0⟩ ∧
    (Testing.sweeping (Testing.order true none) 0).dir.entries[(0 : Fin 48)].held = true ∧
    (Testing.sweeping (Testing.order true none) 0).dir.entries[(0 : Fin 48)].key = some ⟨1, 5⟩ ∧
    (Testing.order true none).retire = true ∧
    (Testing.sweeping (Testing.order true none) 0).dir.entries[(0 : Fin 48)].state = .shown ∧
    (Testing.sweeping (Testing.order true none) 1).dir.entries[(1 : Fin 48)].held = true ∧
    (Testing.sweeping (Testing.order true none) 1).dir.entries[(1 : Fin 48)].state = .ready :=
  ⟨(test_sweeping_pages 0).1, (test_sweeping_pages 1).1, by decide +kernel⟩

/-- The sweeping shelf with a READY page 7 of document 15, to which page 7 of document 1 cannot move. -/
def Testing.blocked : State :=
  let s := Testing.withEntry (Testing.sweeping (Testing.order false (some 15)) 1) 3
    { Testing.page .ready 7 [] with key := some ⟨15, 7⟩, pinned := true }
  s

theorem test_blocked_pages : Testing.blocked.PagesAgree :=
  ⟨by decide +kernel, by decide +kernel, by decide +kernel, by decide +kernel, by decide +kernel, by decide +kernel⟩

theorem test_witness_SweepVisitsOneEntry_moves :
    Testing.blocked.PagesAgree ∧ (Testing.sweeping (Testing.order false (some 15)) 1).PagesAgree ∧
    (Testing.sweeping (Testing.order false (some 15)) 0).PagesAgree ∧
    Testing.blocked.dir.entries[(1 : Fin 48)].held = true ∧
    (⟨(Testing.order false (some 15)).moveDoc.getD 1, 7⟩ : Key) ≠ ⟨1, 7⟩ ∧
    (Testing.blocked.dir.visibleEntry ⟨15, 7⟩).isSome = true ∧
    (Testing.sweeping (Testing.order false (some 15)) 1).dir.visibleEntry ⟨15, 7⟩ = none ∧
    (∀ j : Fin 2, ∀ q ∈ (Testing.sweeping (Testing.order false (some 15)) 1).load.slots[j], q.key ≠ ⟨15, 7⟩) ∧
    (Testing.sweeping (Testing.order false (some 15)) 1).dir.entries[(1 : Fin 48)].state = .ready ∧
    (Testing.sweeping (Testing.order false (some 15)) 0).dir.entries[(0 : Fin 48)].state = .shown ∧
    ((Testing.sweeping (Testing.order false (some 15)) 0).dir.entries[(0 : Fin 48)].marks.filter fun m =>
      decide (∃ c ∈ (Testing.order false (some 15)).clearMarks,
        c.1.getLsbD m.cls.code = true ∧ c.2.getLsbD m.owner.code = true)) = [Testing.ribbon] ∧
    ((Testing.sweeping (Testing.order false (some 15)) 1).dir.entries[(1 : Fin 48)].marks.filter fun m =>
      !decide (∃ c ∈ (Testing.order false (some 15)).clearMarks,
        c.1.getLsbD m.cls.code = true ∧ c.2.getLsbD m.owner.code = true)) = [Testing.highlight] :=
  ⟨test_blocked_pages, (test_sweeping_pages 1).2, (test_sweeping_pages 0).2, by decide +kernel⟩

theorem test_witness_AbortSweepReleasesAll :
    State.reset.Accepts 0x31 (frameOf 7 []) ∧ State.reset.sweep = none ∧ Testing.swept.Accepts 0x31 (frameOf 7 []) ∧
    Testing.swept.sweep = some ⟨⟨none, 6, 9, 0, 0, 0, true, none, none, none, none⟩, 1, 1, 0, 0, 0⟩ ∧
    Testing.swept.nav.cond = .settled ∧ Testing.swept.dir.entries[(1 : Fin 48)].held = true ∧
    Testing.swept.dir.entries[(1 : Fin 48)].key = some ⟨1, 7⟩ ∧
    ({ Testing.swept.nav with wanted := some 7, cond := .waitSweep } : Navigation).wantedKey = some ⟨1, 7⟩ := by
  decide +kernel

/-! ### Witnesses: navigation -/

theorem test_witness_ShowEvaluatesItsKey_swap :
    (∀ j k : Fin 48, Testing.shelf.dir.entries[j].state = .shown → Testing.shelf.dir.entries[k].state = .shown → j = k) ∧
    Testing.shelf.dir.entries[(1 : Fin 48)].state = .ready ∧ Testing.shelf.dir.QueueExact ∧
    Testing.shelf.dir.entries[(0 : Fin 48)].state = .shown ∧
    (Testing.fullStore false).dir.entries[(47 : Fin 48)].state = .ready ∧ (Testing.fullStore false).dir.QueueExact ∧
    (∀ j : Fin 48, (Testing.fullStore false).dir.entries[j].state ≠ .shown) :=
  ⟨test_shelf_pages.2.2.2.2.1.1, by decide +kernel⟩

theorem test_witness_ShowEvaluatesItsKey :
    Testing.shelf.Accepts 0x38 (frameOf 7 (putKey ⟨1, 7⟩)) ∧
    (∀ i : Fin 48, Testing.shelf.dir.entries[i].state ≠ .free → Testing.shelf.dir.entries[i].key ≠ some ⟨1, 8⟩) ∧
    Testing.shelf.dir.visibleEntry ⟨1, 7⟩ = some 1 ∧ Testing.shelf.dir.entries[(1 : Fin 48)].held = false ∧
    Testing.shelf.dir.entries[(1 : Fin 48)].state = .ready ∧
    Testing.shelf.dir.visibleEntry ⟨1, 5⟩ = some 0 ∧ Testing.shelf.dir.entries[(0 : Fin 48)].held = false ∧
    Testing.shelf.dir.entries[(0 : Fin 48)].state = .shown ∧
    Testing.swept.Accepts 0x38 (frameOf 7 (putKey ⟨1, 7⟩)) ∧
    Testing.swept.dir.visibleEntry ⟨1, 7⟩ = some 1 ∧ Testing.swept.dir.entries[(1 : Fin 48)].held = true ∧
    Testing.shelf.dir.visibleEntry ⟨1, 6⟩ = none ∧ Testing.shelf.dir.entries[(2 : Fin 48)].state = .loading ∧
    Testing.shelf.dir.entries[(2 : Fin 48)].key = some ⟨1, 6⟩ ∧ Testing.shelf.nav.shownKey = some ⟨1, 5⟩ ∧
    (Testing.after (.showKey (frameOf 7 (putKey ⟨1, 6⟩)))
      (Testing.withEntry Testing.shelf 0 Entry.free)).nav.cond = .waitLoad := by decide +kernel

/-- The shelf with navigation waiting for page 8, which the miss record has captured. -/
def Testing.missing : State :=
  { Testing.shelf with nav := { Testing.shelf.nav with
    wanted := some 8, cond := .waitMiss, missKey := some ⟨1, 8⟩, missLocked := true } }

theorem test_witness_DeclineMissReturnsToTheShownPage :
    Testing.shelf.Accepts 0x39 (frameOf 7 []) ∧ Testing.shelf.nav.missLocked = false ∧
    Testing.missing.Accepts 0x39 (frameOf 7 []) ∧ Testing.missing.nav.missLocked = true ∧
    Testing.missing.nav.cond ≠ .settled ∧ Testing.missing.comp.statusOn = true := by decide +kernel

/-- The shelf with every key's debouncer two samples into a press. -/
def Testing.keyed : State :=
  { Testing.shelf with nav := { Testing.shelf.nav with keys := Vector.replicate 5 ⟨false, 2⟩ } }

theorem test_witness_KeySamplesAreDebounced :
    State.reset.resetPin = false ∧ OnlyPresses State.reset.nav.keys #v[true, true, true, true, true] none ∧
    Testing.keyed.resetPin = false ∧ OnlyPresses Testing.keyed.nav.keys #v[false, false, false, false, true] (some 4) := by
  decide +kernel

/-- Every key of the keyed shelf registers its press at one sample; of PREV and MARK, with a bounce of NEXT, two do. -/
theorem test_witness_RegisteredPressesAct :
    Testing.keyed.resetPin = false ∧
    Sampled Testing.keyed.nav.keys #v[true, true, true, true, true] (Vector.replicate 5 ⟨true, 0⟩) ∧
    (∀ j : Fin 5, Testing.keyed.nav.keys[j].Registers #v[true, true, true, true, true][j]) ∧
    Sampled Testing.keyed.nav.keys #v[true, false, true, false, false]
      #v[⟨true, 0⟩, ⟨false, 0⟩, ⟨true, 0⟩, ⟨false, 0⟩, ⟨false, 0⟩] ∧
    ¬ Testing.keyed.nav.keys[(1 : Fin 5)].Registers #v[true, false, true, false, false][(1 : Fin 5)] := by
  decide +kernel

/-- R64, R79: navigation wants page 8, and PREV and MARK are pressed at one sample: the step shows page 7, and MARK takes the
bookmark off page 7. With SEEK after MARK there is then no bookmark from page 7 on, and page 5's, below it, is picked. -/
theorem test_presses_in_order :
    let s : State := { Testing.keyed with nav := { Testing.keyed.nav with wanted := some 8 } }
    (Testing.after (.keySample true false true false false) s).nav.shownKey = some ⟨1, 7⟩ ∧
    Testing.ribbon ∉ (Testing.after (.keySample true false true false false) s).dir.entries[(1 : Fin 48)].marks ∧
    (Testing.after (.keySample true false true true false) s).nav.shownKey = some ⟨1, 5⟩ ∧
    (Testing.after (.keySample true false true true true) s).link.notices.head? = some (.key 1 0 1 1 1) := by
  decide +kernel

theorem test_witness_RegisteredPressesAct_pages :
    Testing.keyed.resetPin = false ∧ Testing.keyed.nav.lock = false ∧ Testing.keyed.nav.wanted = some 5 ∧
    OnlyPresses Testing.keyed.nav.keys #v[true, false, false, false, false] (some 0) ∧
    OnlyPresses Testing.keyed.nav.keys #v[false, true, false, false, false] (some 1) ∧
    OnlyPresses Testing.keyed.nav.keys #v[false, false, false, true, false] (some 3) ∧
    (4#16).toNat + 1 = (5#16).toNat ∧ (0xFFFF#16).toNat = (0xFFFE#16).toNat + 1 ∧ (0#16).toNat + 1 = (1#16).toNat ∧
    Testing.keyed.dir.entries[(1 : Fin 48)].state = .ready ∧
    Testing.keyed.dir.entries[(1 : Fin 48)].key = some ⟨Testing.keyed.nav.document, 7⟩ ∧
    Testing.keyed.dir.entries[(1 : Fin 48)].held = false ∧
    Testing.ribbon ∈ Testing.keyed.dir.entries[(1 : Fin 48)].marks ∧ Testing.ribbon.cls = .bookmark ∧
    ({ Testing.keyed.nav with lock := true } : Navigation).lock = true ∧
    ({ Testing.keyed.nav with wanted := some 0 } : Navigation).wanted = some 0 ∧
    ({ Testing.keyed.nav with wanted := some 0xFFFF } : Navigation).wanted = some 0xFFFF ∧
    State.reset.nav.wanted = none := by decide +kernel

/-- R69, R70 on the keyed shelf: PREV wants page 4, which is absent, NEXT page 6, which is loading; SEEK from page 5 shows
page 7, the only bookmarked page above it. -/
theorem test_pages_of_presses :
    (Testing.after (.keySample true false false false false) Testing.keyed).nav.wanted = some 4 ∧
    (Testing.after (.keySample true false false false false) Testing.keyed).nav.cond = .waitMiss ∧
    (Testing.after (.keySample false true false false false) Testing.keyed).nav.wanted = some 6 ∧
    (Testing.after (.keySample false true false false false) Testing.keyed).nav.cond = .waitLoad ∧
    (Testing.after (.keySample false false false true false) Testing.keyed).nav.shownKey = some ⟨1, 7⟩ := by
  decide +kernel

theorem test_witness_RegisteredPressesAct_mark :
    Testing.keyed.resetPin = false ∧ Testing.keyed.nav.lock = false ∧
    OnlyPresses Testing.keyed.nav.keys #v[false, false, true, false, false] (some 2) ∧
    Testing.keyed.dir.shownEntry = some 0 ∧ Testing.keyed.dir.entries[(0 : Fin 48)].held = false ∧
    Testing.keyed.dir.entries[(0 : Fin 48)].kind = .text ∧
    Testing.ribbon = ⟨.bookmark, .patron, firstLineOfBand Testing.keyed.touch.band, 0, 40⟩ ∧
    Testing.ribbon ∈ Testing.keyed.dir.entries[(0 : Fin 48)].marks ∧
    (⟨.bookmark, .patron, firstLineOfBand 7, 0, 40⟩ : Mark) ∉ Testing.keyed.dir.entries[(0 : Fin 48)].marks ∧
    Testing.keyed.dir.entries[(0 : Fin 48)].marks.length < 8 ∧ State.reset.dir.shownEntry = none ∧
    Testing.ribbon ∉ Testing.markedShelf.dir.entries[(0 : Fin 48)].marks ∧
    8 ≤ Testing.markedShelf.dir.entries[(0 : Fin 48)].marks.length := by decide +kernel

theorem test_witness_RegisteredPressesAct_seek :
    (∃ x ∈ [7#16, 9#16, 8#16], (7#16).toNat < x.toNat) ∧ (∀ x ∈ [8#16, 7#16, 9#16], x.toNat ≤ (9#16).toNat) ∧
    seekPick [7#16, 9#16, 8#16] 7 = some 8 ∧ seekPick [8#16, 7#16, 9#16] 9 = some 7 ∧ seekPick [] 9 = none :=
  ⟨⟨9#16, by simp, by decide⟩, by simp, by decide +kernel, by decide +kernel, by decide +kernel⟩

/-! ### Witnesses: the page image, the drive and the calendar -/

theorem test_witness_StatusLineAndBlink :
    State.reset.Accepts 0x40 (frameOf 7 (putBool false :: putNat16 2000 ++ (Vector.replicate 30 (65 : Byte)).toList)) ∧
    (200 ≤ 2000 ∧ 2000 ≤ 2000 ∧ 2000 % 100 = 0) ∧ (200 ≤ 200 ∧ 200 % 100 = 0) ∧
    State.reset.Accepts 0x40 (frameOf 7 (2 :: put16 0 ++ List.replicate 30 65)) ∧
    (List.replicate 30 (65 : Byte)).length = 30 ∧ 2 ≤ (2#8).toNat ∧
    ¬ ((199#16).toNat = 0 ∨ (200 ≤ (199#16).toNat ∧ (199#16).toNat ≤ 2000 ∧ (199#16).toNat % 100 = 0)) ∧
    State.reset.Accepts 0x41 (frameOf 7 (defaultGlyphs.numberSign :: defaultGlyphs.digits.toList ++
      [defaultGlyphs.settled, defaultGlyphs.waiting])) ∧
    State.reset.comp.statusOn = true ∧ State.reset.comp.blinkTimer ≠ none ∧ State.reset.resetPin = false ∧
    State.reset.dir.shownEntry = none ∧
    (Testing.after (.setStatus (frameOf 7 (0 :: 0 :: 0 :: List.replicate 30 65))) State.reset).comp.blinkTimer = none ∧
    (Testing.after (.setStatus (frameOf 7 (0 :: 0 :: 0 :: List.replicate 30 65))) State.reset).comp.statusOn = false := by
  decide +kernel

/-- A CURSOR on cells 0 and 1 of line 0 of the SHOWN page. -/
def Testing.pointer : Mark := ⟨.cursor, .supplied, 0, 0, 2⟩

/-- The shelf with a CURSOR on the SHOWN page, in the CLEAR zone 0. -/
def Testing.pointed : State := Testing.withEntry Testing.shelf 0 (Testing.page .shown 5 [Testing.pointer])

/-- Line 0 blinks, line 1 does not, and no line of the other shelf does. -/
theorem test_witness_StatusLineAndBlink_lines :
    Testing.pointed.Blinks 0 ∧ Testing.pointed.CursorIn 0 0 ∧ ¬ Testing.pointed.Blinks 1 ∧ ∀ l, ¬ Testing.shelf.Blinks l := by
  have h : Testing.pointed.dir.shownEntry = some 0 ∧ Testing.pointed.dir.entries[(0 : Fin 48)].marks = [Testing.pointer] ∧
      Testing.pointed.dir.entries[(0 : Fin 48)].kind = .text ∧ Testing.shelf.dir.shownEntry = some 0 ∧
      Testing.shelf.dir.entries[(0 : Fin 48)].marks = [Testing.ribbon] ∧
      Testing.pointed.touch.zones[(0 : Fin 16)].state = .clear ∧ zoneOfCell 0 0 = 0 := by decide +kernel
  obtain ⟨h1, h2, h3, h4, h5, h6, h7⟩ := h
  have hc : Testing.pointed.CursorIn 0 0 := ⟨by decide, 0, h1, h3, Testing.pointer, by rw [h2]; simp, rfl, rfl, 0,
    by decide, by decide, by decide, h7⟩
  refine ⟨⟨0, hc, h6⟩, hc, fun ⟨z, ⟨_, i, hi, _, m, hm, _, hl, _⟩, _⟩ => ?_, fun l ⟨z, ⟨_, i, hi, _, m, hm, hk, _⟩, _⟩ => ?_⟩
  · rw [h1] at hi; injection hi with hi; subst hi; rw [h2] at hm
    simp only [List.mem_singleton] at hm; subst hm; exact absurd hl (by decide)
  · rw [h4] at hi; injection hi with hi; subst hi; rw [h5] at hm
    simp only [List.mem_singleton] at hm; subst hm; exact absurd hk (by decide)

/-- A recomposition that changes no target, and one that changes some. -/
theorem test_witness_RecompositionMovesTargets :
    storeWf 0 Testing.shelf.pins.attempts = true ∧
    (∀ r : Fin 128, ((Testing.composed.newTarget allLines)[r] = Testing.composed.comp.target[r])) ∧
    (∃ r : Fin 128, (Testing.shelf.newTarget [0])[r] ≠ Testing.shelf.comp.target[r]) :=
  ⟨by decide +kernel, by decide +kernel, ⟨3, by decide +kernel⟩⟩

theorem test_witness_HoldAndSurvey_survey :
    State.reset.cal.sched = .surveying ∧ (∀ p, State.reset.drive.cond ≠ .inFlight p) ∧
    State.reset.Accepts 0x51 (frameOf 7 []) ∧ State.reset.Accepts 0x52 (frameOf 7 []) ∧
    State.reset.Accepts 0x53 (frameOf 7 []) ∧
    (Testing.after (.pauseDrive (frameOf 7 [])) State.reset).cal.sched = .paused ∧
    (Testing.after (.pauseDrive (frameOf 7 [])) State.reset).Accepts 0x52 (frameOf 7 []) ∧
    LeastIndex (fun r : Fin 128 => (Testing.after (.pauseDrive (frameOf 7 [])) State.reset).pins.known[r] = false) 0 ∧
    (Testing.after .supplyFall State.reset).cal.sched = .supplyLow :=
  ⟨by decide, fun _ h => DriveCondition.noConfusion h, by decide, by decide, by decide, by decide +kernel,
    by decide +kernel, by decide +kernel, by decide +kernel⟩

theorem test_witness_HoldAndSurvey_drive :
    (Testing.driving (.inFlight Testing.plan) 0).cal.sched = .driving ∧
    (∃ p, (Testing.driving (.inFlight Testing.plan) 0).drive.cond = .inFlight p) ∧
    (Testing.driving (.inFlight Testing.plan) 0).Accepts 0x53 (frameOf 7 []) ∧
    (∀ p, (Testing.driving (.waitCharge Testing.plan) 31).drive.cond ≠ .inFlight p) ∧
    (Testing.driving (.waitCharge Testing.plan) 31).Accepts 0x51 (frameOf 7 []) ∧
    Testing.idle.cal.sched = .idle ∧ Testing.idle.Accepts 0x52 (frameOf 7 []) ∧
    (Testing.after (.pauseDrive (frameOf 7 [])) Testing.idle).cal.sched = .paused ∧
    (∀ r : Fin 128, (Testing.after (.pauseDrive (frameOf 7 [])) Testing.idle).pins.known[r] = true) :=
  ⟨rfl, ⟨_, rfl⟩, by decide +kernel, fun _ h => DriveCondition.noConfusion h, by decide +kernel, rfl, by decide +kernel,
    by decide +kernel, by decide +kernel⟩

theorem test_witness_ChargeStartsStrokes :
    (Testing.driving (.waitCharge Testing.plan) 31).resetPin = false ∧
    (Testing.after .supplyFall State.reset).drive.supply = .low ∧
    (Testing.driving (.waitCharge Testing.plan) 31).drive.supply = .ok ∧
    32 = min 2000 ((Testing.driving (.waitCharge Testing.plan) 31).drive.level + 1) ∧ Testing.plan.cost ≤ 32 ∧
    31 = min 2000 ((Testing.driving (.waitCharge Testing.plan) 30).drive.level + 1) ∧ 31 < Testing.plan.cost ∧
    Testing.plan.cost ≤ (Testing.driving (.waitCharge Testing.plan) 32).drive.level ∧
    (Testing.driving (.waitCharge Testing.plan) 31).drive.level < Testing.plan.cost := by decide +kernel

theorem test_witness_SupplyFallsAndRises :
    State.reset.resetPin = false ∧ State.reset.drive.supply = .ok ∧
    (Testing.after .supplyFall State.reset).drive.supply = .low ∧
    (Testing.after .supplyFall State.reset).cal.hold = false ∧
    LeastIndex (fun r : Fin 128 => (Testing.after .supplyFall State.reset).pins.known[r] = false) 0 ∧
    (Testing.after .supplyFall Testing.idle).drive.supply = .low ∧
    (∀ r : Fin 128, (Testing.after .supplyFall Testing.idle).pins.known[r] = true) ∧
    (Testing.after (.pauseDrive (frameOf 7 [])) (Testing.after .supplyFall State.reset)).cal.hold = true ∧
    (Testing.after .resetPinAsserted State.reset).resetPin = true := by decide +kernel

/-- Row 3 of line 0 with 30 pins to raise in bank 0 and bank 1, all of them mark pins. -/
def Testing.broad : State :=
  { Testing.driving .noPlan 0 with
    comp := { State.reset.comp with
      target := State.reset.comp.target.set 3 0x3FFFFFFF
      markPins := State.reset.comp.markPins.set 0 0x3FFFFFFF } }

/-- R138 on that row: 12 pins of bank 0 and 2 more mark pins, and the 10 of bank 1. -/
theorem test_plan_of_a_row :
    (Testing.broad.planMoves 3).map (fun m => m.col.val) =
      List.range 14 ++ (List.range 10).map (· + 20) ∧ planCost (Testing.broad.planMoves 3) = 10 + 24 * 8 := by
  decide +kernel

theorem test_witness_PlansAreFormed :
    Testing.broad.Strokable 3 0 ∧ Testing.broad.Strokable 3 29 ∧ ¬ Testing.broad.Strokable 3 30 ∧
    Testing.broad.planMoves 3 ≠ [] ∧ Testing.broad.planMoves 4 = [] ∧
    (Testing.driving (.waitCharge Testing.plan) 31).drive.cond = .waitCharge Testing.plan ∧
    Testing.plan.kind = .drive ∧ Testing.plan.row = 124 ∧
    (Testing.driving (.waitCharge Testing.plan) 31).planMoves 124 = Testing.plan.moves := by decide +kernel

/-- A visit in progress, none in progress, a visit at the end of its row and of its line, and each scheduler state. -/
theorem test_witness_VisitsFollowTheCalendar :
    State.reset.CalendarSound ∧ (Testing.driving .noPlan 0).CalendarSound ∧ Testing.idle.CalendarSound ∧
    (joinQuiet ((List.finRange 32).drop 1) 0).length = 32 :=
  ⟨by decide +kernel, by decide +kernel, by decide +kernel, by decide +kernel⟩

theorem test_witness_VisitsFollowTheCalendar_states :
    State.reset.cal.visit = none ∧ State.reset.cal.slots[State.reset.cal.current]? = some ⟨0, 0, 1, true, 0⟩ ∧
    (Testing.driving .noPlan 0).cal.visit = some ⟨31, 0, 0, true⟩ ∧
    (Testing.driving .noPlan 0).cal.sched = .driving ∧ Testing.idle.cal.sched = .idle ∧
    State.reset.cal.sched ≠ .driving ∧ State.reset.cal.sched ≠ .idle := by decide +kernel

/-- R155, R158, R159: with nothing to move a waking comes back to IDLE, with the 32 lines in the quiet set in the order of
their visits, and SETTLE posted. -/
theorem test_visits_settle :
    Testing.idle.wake.cal.sched = .idle ∧ Testing.idle.wake.cal.quiet = List.finRange 32 ∧
    Testing.idle.wake.link.notices = [.settle 0 0] := by decide +kernel

/-- The driving state with one fault record, of pin 79 of row 127. -/
def Testing.stuck : State :=
  { State.reset with pins := { State.reset.pins with faults := [⟨127, 79, true⟩] } }

theorem test_witness_ClearFaultsRemovesItsRecords :
    Testing.stuck.Accepts 0x59 (frameOf 7 [0, 127, 79]) ∧
    (2 ≤ (2#8).toNat ∧ 128 ≤ (128#8).toNat ∧ 80 ≤ (80#8).toNat) ∧ storeWf 0 Testing.stuck.pins.attempts = true ∧
    (127#8).toNat < 128 ∧ (79#8).toNat < 80 ∧
    Testing.stuck.pins.faults.filter (fun f => f.row.val == (127#8).toNat && f.col.val == (79#8).toNat) =
      [⟨127, 79, true⟩] ∧
    Testing.stuck.pins.faults.filter (fun f => f.row.val == (0#8).toNat && f.col.val == (0#8).toNat) = [] := by
  decide +kernel

theorem test_witness_SurveyReadsItsRow :
    ({ State.reset with drive := { State.reset.drive with cond := .inFlight (surveyPlan 127 12) } } : State).drive.cond =
      .inFlight (surveyPlan 127 12) ∧ (surveyPlan 127 12).kind = .survey ∧ State.reset.resetPin = false ∧
    (∀ p, State.reset.drive.cond ≠ .inFlight p) :=
  ⟨rfl, rfl, rfl, fun _ h => DriveCondition.noConfusion h⟩

theorem test_witness_DriveStrokesAreJudged :
    (Testing.driving (.inFlight Testing.plan) 0).resetPin = false ∧
    (Testing.driving (.inFlight Testing.plan) 0).drive.cond = .inFlight Testing.plan ∧ Testing.plan.kind = .drive ∧
    (Testing.plan.moves.map Move.col).Pairwise (· < ·) ∧
    storeWf 0 (Testing.driving (.inFlight Testing.plan) 0).pins.attempts = true ∧
    (Testing.driving (.inFlight Testing.plan) 0).pins.faults.length ≤ 64 ∧
    Testing.plan.moves.filter (fun m => decide ((0 : PinRow).getLsbD m.col.val ≠ m.up ∧ m.pulse ≠ .soft)) =
      Testing.plan.moves ∧
    (Testing.plan.moves.filter fun m =>
      decide (2 ≤ (Testing.driving (.inFlight Testing.plan) 0).pins.attempt Testing.plan.row m.col)) =
      [⟨0, .boost, true⟩] := by decide +kernel

/-- Zone 15 holds a record. -/
def Testing.zoned (x : Zone) : State :=
  { State.reset with touch := { State.reset.touch with zones := State.reset.touch.zones.set 15 x } }

theorem test_witness_ZonesFollowTheirReadings :
    (Testing.zoned ⟨.clear, none, 0, none⟩).resetPin = false ∧
    (Testing.zoned ⟨.clear, none, 0, none⟩).touch.zones[(15 : Fin 16)].baseline = none ∧
    (Testing.zoned ⟨.clear, some 1000, 2, none⟩).touch.zones[(15 : Fin 16)] = ⟨.clear, some 1000, 2, none⟩ ∧
    (120 : Int) = ((1120#12).toNat : Int) - (1000 : Nat) ∧ (120 : Int) ≤ 120 ∧ ¬ (120 : Int) ≤ 119 ∧
    (119 : Int) = ((1119#12).toNat : Int) - (1000 : Nat) ∧
    (Testing.zoned ⟨.touched, some 1000, 2, some 6⟩).touch.zones[(15 : Fin 16)] = ⟨.touched, some 1000, 2, some 6⟩ ∧
    (59 : Int) = ((1059#12).toNat : Int) - (1000 : Nat) ∧ (59 : Int) < 60 ∧ ¬ (60 : Int) < 60 ∧
    (Testing.zoned ⟨.expired, some 1000, 1, none⟩).touch.zones[(15 : Fin 16)] = ⟨.expired, some 1000, 1, none⟩ := by
  decide +kernel

theorem test_witness_ResetsPutTheResetValues : Testing.shelf.Accepts 0x7F (frameOf 7 []) := by decide +kernel

/-! ### Witnesses: what every step keeps. None of the states is the reset state, and a row waits in each. -/

/-- The composed shelf with a row waiting. -/
def Testing.waits (c : Instr) (s : State) : State := { s with pending := [c] }

theorem Testing.waits_pages {c : Instr} {s : State} (h : s.PagesAgree) : (Testing.waits c s).PagesAgree := h

theorem Testing.steps (c : Instr) (s : State) (h : s.pending = []) (g : Testing.gives c s (fun _ => true) = true) :
    ∃ t, step (Testing.waits c s) = .next t := by
  obtain ⟨pending, resetPin, supplyPin, link, dir, load, sweep, nav, comp, pins, drive, cal, touch⟩ := s
  subst h
  unfold Testing.gives at g
  split at g
  · exact ⟨_, by assumption⟩
  · exact absurd g (by decide)
  · exact absurd g (by decide)

/-- The composed shelf with page 7 waiting for the sweep that retires it. -/
def Testing.composedSweep : State := Testing.swept.recompose allLines

theorem test_composedSweep_pages : Testing.composedSweep.PagesAgree :=
  ⟨by decide +kernel, by decide +kernel, by decide +kernel, by decide +kernel, by decide +kernel, by decide +kernel⟩

theorem test_witness_StepKeepsThePages :
    (Testing.waits .sweepVisit Testing.composedSweep).PagesAgree ∧
    (Testing.waits .sweepVisit Testing.composedSweep).MarksSound ∧
    (Testing.waits .sweepVisit Testing.composedSweep).StoresCanonical ∧
    (Testing.waits .sweepVisit Testing.composedSweep).NavigationAgrees ∧
    (Testing.waits .sweepVisit Testing.composedSweep).ImageComposed ∧
    (Testing.waits .sweepVisit Testing.composedSweep).SweepCountsSound ∧
    (∀ b, Instr.sweepVisit ≠ .patchCells b) ∧
    Testing.composedSweep.dir.entries[(0 : Fin 48)].visible = true ∧
    ∃ t, step (Testing.waits .sweepVisit Testing.composedSweep) = .next t :=
  ⟨Testing.waits_pages test_composedSweep_pages, by decide +kernel, by decide +kernel, by decide +kernel,
    by decide +kernel, by decide +kernel, fun _ h => Instr.noConfusion h, by decide +kernel,
    Testing.steps _ _ (by decide +kernel) (by decide +kernel)⟩

theorem test_witness_StepKeepsPinsPlansAndTheDrive :
    (Testing.waits .refillUnitArrival (Testing.driving (.waitCharge Testing.plan) 31)).PinsSound ∧
    (Testing.waits .refillUnitArrival (Testing.driving (.waitCharge Testing.plan) 31)).DriveSound ∧
    (Testing.waits .refillUnitArrival (Testing.driving (.waitCharge Testing.plan) 31)).CalendarSound ∧
    (Testing.waits .refillUnitArrival (Testing.driving (.waitCharge Testing.plan) 31)).TouchSound ∧
    (Testing.waits .refillUnitArrival (Testing.noticed [.miss ⟨0, 0⟩, .key 15 0 0 0 1])).NoticesDistinct ∧
    (∃ t, step (Testing.waits .refillUnitArrival (Testing.driving (.waitCharge Testing.plan) 31)) = .next t) ∧
    ∃ t, step (Testing.waits .refillUnitArrival (Testing.noticed [.miss ⟨0, 0⟩, .key 15 0 0 0 1])) = .next t :=
  ⟨by decide +kernel, by decide +kernel, by decide +kernel, by decide +kernel, by decide +kernel,
    Testing.steps _ _ rfl (by decide +kernel), Testing.steps _ _ rfl (by decide +kernel)⟩

theorem test_witness_NoPulseWhereNoneMayBeGiven :
    (Testing.driving (.waitCharge Testing.plan) 31).PinsSound ∧
    (∃ t, exec .refillUnitArrival (Testing.driving (.waitCharge Testing.plan) 31) = .next t ∧
      t.drive.cond = .inFlight Testing.plan) ∧ Testing.plan.kind = .drive ∧
    (Testing.driving (.waitCharge Testing.plan) 31).drive.cond ≠ .inFlight Testing.plan :=
  ⟨by decide +kernel, Testing.next_of_gives (by decide +kernel), rfl, fun h => DriveCondition.noConfusion h⟩

/-! ### Single rows: the manual's own examples, and values read from its rules -/

/-- The shelf shows page `p`, and its miss record and status line stand as after a reset. -/
def Testing.shows (p : BitVec 16) : State := Testing.withEntry Testing.shelf 0 (Testing.page .shown p [])

theorem test_witness_LinesAreComposed :
    lineOfRow 127 = 31 ∧ Testing.shelf.comp.statusOn = true ∧ Testing.shelf.dir.shownEntry = some 0 ∧
    Testing.shelf.dir.entries[(0 : Fin 48)].key = some ⟨1, 5⟩ ∧
    ([5] : List (Fin 10)).foldl (fun n d => 10 * n + d.val) 0 = (5#16).toNat ∧ (∃ d ∈ ([5] : List (Fin 10)).head?, d ≠ 0) ∧
    Testing.shelf.dir.entries[(0 : Fin 48)].kind = .text ∧ ¬ (lineOfRow 123 = 31 ∧ Testing.shelf.comp.statusOn = true) ∧
    State.reset.dir.shownEntry = none ∧
    (Testing.withEntry Testing.shelf 0 { Testing.page .shown 5 [] with kind := .raw }).dir.shownEntry = some 0 ∧
    (Testing.withEntry Testing.shelf 0 { Testing.page .shown 5 [] with kind := .raw }).dir.entries[(0 : Fin 48)].kind =
      .raw :=
  ⟨by decide, by decide, by decide +kernel, by decide +kernel, by decide, ⟨5, rfl, by decide⟩, by decide +kernel,
    by decide, by decide +kernel, by decide +kernel, by decide +kernel⟩

/-- R103, the table of the page field. -/
theorem test_page_field :
    pageField defaultGlyphs (some 207) = [0x3C, 0x03, 0x1A, 0x1B, 0, 0] ∧
    pageField defaultGlyphs (some 65535) = [0x3C, 0x0B, 0x11, 0x11, 0x09, 0x11] ∧
    pageField defaultGlyphs (some 0) = [0x3C, 0x1A, 0, 0, 0, 0] ∧ pageField defaultGlyphs none = [0, 0, 0, 0, 0, 0] := by
  decide +kernel

/-- 06, the status line through a page turn: pins 65 to 68 and 71 to 73 of row 124 are UP for page 1207. -/
theorem test_status_line_pins :
    (Testing.shows 1207).composeRow 124 = 1 <<< 65 ||| 1 <<< 66 ||| 1 <<< 68 ||| 1 <<< 71 ||| 1 <<< 72 ||| 1 <<< 73 ∧
    (Testing.shows 1207).composeRow 126 = 1 <<< 64 ||| 1 <<< 65 := by decide +kernel

/-- 03, the dots of one line: a CURSOR in cell 12 inside a FIND, in the phase and the zone state given. -/
def Testing.cursorLine (blinkOn : Bool) (zone : ZoneState) : State :=
  let s := Testing.withEntry Testing.shelf 0
    (Testing.page .shown 5 [⟨.cursor, .supplied, 5, 12, 1⟩, ⟨.find, .supplied, 5, 10, 5⟩])
  { s with
    dir := { s.dir with frames := [(212, 0x07)] }
    comp := { s.comp with blinkOn := blinkOn }
    touch := { s.touch with zones := s.touch.zones.set 2 ⟨zone, some 0, 0, none⟩ } }

theorem test_dots_of_one_line :
    (Testing.cursorLine false .clear).textCell 0 5 12 = 0x87 ∧ (Testing.cursorLine true .clear).textCell 0 5 12 = 0xC7 ∧
    (Testing.cursorLine false .touched).textCell 0 5 12 = 0xC7 ∧ (Testing.cursorLine true .clear).textCell 0 5 11 = 0x80 ∧
    (Testing.cursorLine true .clear).composeMarkPins 5 = 0x3FF <<< 20 := by decide +kernel

/-- 08, two strokes on one row: the settings and candidates of pin row 35. -/
def Testing.row35 : State :=
  let set (l : List (Fin 80)) : PinRow := l.foldl (fun x c => x ||| columnBit c) 0
  { State.reset with
    comp := { State.reset.comp with
      target := State.reset.comp.target.set 35 (set [0, 2, 4, 6, 8, 10, 12, 14, 15, 16, 17, 18, 19, 21, 22, 52])
      markPins := State.reset.comp.markPins.set 8 (0x3F <<< 14) }
    pins := { State.reset.pins with
      known := Vector.replicate 128 true
      confirmed := State.reset.pins.confirmed.set 35 (set [1, 3, 5, 7, 9, 11, 13, 25])
      attempts := [(2821, 1), (2822, 1)] }
    touch := { State.reset.touch with zones := State.reset.touch.zones.set 5 ⟨.touched, some 0, 0, none⟩ } }

theorem test_two_strokes_on_one_row :
    (Testing.row35.planMoves 35).map Move.col = [0, 1, 2, 3, 4, 5, 6, 7, 8, 9, 10, 11, 14, 15, 21, 22, 25] ∧
    planCost (Testing.row35.planMoves 35) = 137 ∧ Testing.row35.deferred 35 = 1 <<< 52 := by decide +kernel

/-- 10, the touch filter: the readings 1050, 1180, 1190 and 1200 of zone (2, 1). -/
theorem test_touch_filter :
    (([1050, 1180, 1190, 1200] : List (BitVec 12)).foldl (fun s m => Testing.after (.zoneReading 5 m) s)
      { State.reset with touch := { State.reset.touch with
        zones := State.reset.touch.zones.set 5 ⟨.clear, some 1000, 0, none⟩ } }).touch.zones[(5 : Fin 16)] =
      ⟨.touched, some 1003, 0, none⟩ := by decide +kernel

/-- R180, R181, R183, R186: the link at rest. -/
theorem test_link_rows :
    (Testing.after (.writeCommand 0 [0x7F, 9, 0, 0]) State.reset).link.buffer = some ⟨0x7F, ⟨9, 0, []⟩⟩ ∧
    (Testing.after (.readResponse 5) State.reset).link.shiftedOut = [0, 0, 0, 0x12, 0, 0] ∧
    (Testing.after (.readNotice 3) State.reset).link.shiftedOut = [0, 0, 0, 0] ∧
    (Testing.after (.statusOnlyTransaction 0 0) (Testing.noticed [.miss ⟨0, 0⟩])).link.shiftedOut = [2] ∧
    Testing.answerTo (.unknownCommand 0x7E Testing.bare) State.reset = some (.unknownCommand, []) := by decide +kernel

/-- R26, R37, R39: a LINE_END, the escape value as a code, and an inline mark. -/
theorem test_load_rows :
    ((Testing.answerTo (.openLoad (frameOf 7 [1, 8, 0, 0, 0, 0, 3, 0, 0])) Testing.shelf).map fun a => a.2.take 3) =
      some [1, 3, 0xFF] ∧
    Testing.answerTo (.data (frameOf 7 [0, 0xFF, 0x0D])) Testing.shelf = some (.ok, [2, 0, 0, 0, 1, 1, 0, 0, 0]) ∧
    Testing.answerTo (.data (frameOf 7 [0, 0xFF, 0x00])) Testing.shelf = some (.streamFault, [1, 1, 0, 0, 0]) ∧
    (Testing.after (.data (frameOf 7 [0, 0xFF, 0x1C, 0, 65, 66, 0xFF, 0x1D])) Testing.shelf).dir.entries[(2 : Fin 48)].marks =
      [⟨.cursor, .supplied, 0, 0, 2⟩] := by decide +kernel

/-- R42, R45, R46, R47. -/
theorem test_load_end_rows :
    Testing.answerTo (.commit (frameOf 7 [0])) Testing.shelf = some (.ok, [2, 1, 0, 0, 0xFF, 0, 0, 0]) ∧
    Testing.answerTo (.commit (frameOf 7 [0])) (Testing.reloads 7 .any) = some (.ok, [2, 4, 0, 1, 1, 1, 0, 0]) ∧
    Testing.answerTo (.cancelLoad (frameOf 7 [0])) Testing.shelf = some (.ok, [2, 0, 0, 0, 0]) ∧
    (Testing.after (.timeout 0) Testing.shelf).link.notices = [.streamFault 0 .timeout 0] ∧
    Testing.answerTo (.setControlCodes (frameOf 7 (0xFF :: Testing.codeTable)))
      Testing.shelf = some (.slotState, []) := by decide +kernel

/-- R16 to R20. -/
theorem test_entry_rows :
    Testing.answerTo (.queryEntry (frameOf 7 [1, 5, 0])) Testing.shelf =
      some (.ok, [0, 3, 1, 5, 0, 0, 3, 0, 0, 0, 0, 0xFF, 1, 1, 1, 0, 0, 40]) ∧
    Testing.answerTo (.listEntries (frameOf 7 [2, 1])) Testing.shelf = some (.ok, [1, 2, 1, 1, 6, 0, 0, 0, 0, 0, 0, 0, 0, 0]) ∧
    Testing.answerTo (.patchCells (frameOf 7 [1, 7, 0, 1, 3, 0, 0, 39, 65])) Testing.shelf = some (.ok, [4, 0]) ∧
    Testing.answerTo (.retire (frameOf 7 [1, 7, 0, 0, 0, 0])) Testing.shelf = some (.ok, [1, 3, 0]) ∧
    (Testing.after (.setEntry (frameOf 7 [1, 7, 0, 1, 15])) Testing.shelf).dir.queue = [] := by decide +kernel

/-- R53, R55, R85, R86, R94. -/
theorem test_mark_and_sweep_rows :
    Testing.answerTo (.addMark (frameOf 7 [1, 7, 0, 0, 0, 0, 2, 31, 38, 2])) Testing.shelf = some (.ok, [3, 0, 1, 2]) ∧
    Testing.answerTo (.dropMarks (frameOf 7 [1, 7, 0, 0, 0, 0, 15, 3, 0xFF])) Testing.shelf = some (.ok, [2, 4, 0, 0]) ∧
    Testing.answerTo (.sweep (frameOf 7 [0, 0, 0, 0, 0xFF, 0xFF, 0, 0, 0, 1, 0, 0, 0, 0, 0])) Testing.shelf =
      some (.accepted, [2]) ∧
    (Testing.after .sweepVisit Testing.swept).dir.entries[(1 : Fin 48)] = Entry.free ∧
    Testing.answerTo (.abortSweep Testing.bare) Testing.swept = some (.ok, [1]) := by decide +kernel

/-- R63, R64, R69, R71 to R73. -/
theorem test_navigation_rows :
    Testing.answerTo (.showKey (frameOf 7 [1, 9, 0])) Testing.shelf = some (.notFound, []) ∧
    Testing.answerTo (.showKey (frameOf 7 [1, 6, 0])) Testing.shelf = some (.ok, [2, 1, 5, 0]) ∧
    Testing.answerTo (.declineMiss Testing.bare) Testing.missing = some (.ok, [1, 1, 5, 0, 1, 5, 0, 0, 0]) ∧
    Testing.answerTo (.setNavigation (frameOf 7 [2])) Testing.shelf = some (.badArgument, []) ∧
    (Testing.after (.keySample false true false false false) Testing.keyed).nav.cond = .waitLoad := by decide +kernel

/-- R105 to R107, R154. -/
theorem test_display_rows :
    (Testing.after (.setStatus (frameOf 7 (1 :: 0 :: 0 :: List.replicate 30 65))) State.reset).comp.blinkTimer = none ∧
    (Testing.after (.setGlyphs (frameOf 7 (List.replicate 13 1))) State.reset).comp.glyphs.waiting = 1 ∧
    (Testing.after .blinkTimerExpiry State.reset).comp.blinkOn = false ∧
    Testing.answerTo (.setCalendar (frameOf 7 (1 :: [0, 30, 1, 0] ++ List.replicate 12 0))) State.reset =
      some (.badCalendar, []) ∧
    (Testing.after (.setCalendar (frameOf 7 (1 :: [0, 31, 8, 0] ++ List.replicate 12 0))) State.reset).cal.slots =
      [⟨0, 31, 8, false, 0⟩] := by decide +kernel

/-- R141, R148, R162 to R164. -/
theorem test_drive_rows :
    Testing.answerTo (.setDrive (frameOf 7 [7, 60, 12, 2])) State.reset = some (.badArgument, []) ∧
    (Testing.after (.pauseDrive Testing.bare) State.reset).cal.sched = .paused ∧
    (Testing.after (.resumeDrive Testing.bare) (Testing.after (.pauseDrive Testing.bare) State.reset)).drive.cond =
      .waitCharge (surveyPlan 0 12) ∧
    (Testing.after (.survey Testing.bare) Testing.idle).cal.sched = .surveying ∧
    (Testing.after .refillUnitArrival State.reset).drive.level = 1 ∧
    (Testing.after .strokeStart (Testing.driving (.waitCharge Testing.plan) 40)).drive.level = 8 := by decide +kernel

/-- R118 to R120, R126, R146, R147: a failed second attempt, a third, and a supply that falls and rises. -/
theorem test_stroke_rows :
    (Testing.after (.strokeCompletion 0) (Testing.driving (.inFlight Testing.plan) 0)).pins.faults = [⟨124, 0, false⟩] ∧
    (Testing.after (.strokeCompletion 0) (Testing.driving (.inFlight Testing.plan) 0)).pins.attempts = [(9999, 1)] ∧
    (Testing.after .supplyFall (Testing.driving (.inFlight Testing.plan) 5)).pins.known[(124 : Fin 128)] = false ∧
    (Testing.after .supplyRise (Testing.after .supplyFall State.reset)).link.notices = [.drive .surveying .ok] := by
  decide +kernel

/-- R127 to R130: the fault table and a row. -/
theorem test_pin_rows :
    Testing.answerTo (.readFaults Testing.bare) Testing.stuck = some (.ok, [1, 127, 79, 0]) ∧
    Testing.answerTo (.clearFaults (frameOf 7 [0, 127, 79])) Testing.stuck = some (.ok, [1, 0]) ∧
    Testing.answerTo (.readRow (frameOf 7 [124])) (Testing.driving .noPlan 0) =
      some (.ok, 1 :: List.replicate 10 0 ++ [1, 0, 0, 0, 0, 0, 0, 0, 0, 0x80] ++ List.replicate 20 0) := by
  decide +kernel

/-- R173, R177, R187: touch and masks. -/
theorem test_touch_rows :
    (Testing.after (.holdTimerExpiry 15) (Testing.zoned ⟨.touched, some 9, 1, some 6⟩)).touch.zones[(15 : Fin 16)] =
      ⟨.expired, some 9, 1, none⟩ ∧
    (Testing.after (.setTouch (frameOf 7 [16, 0, 15, 0, 1])) State.reset).touch.tOff = 15 ∧
    Testing.answerTo (.setNoticeMask (frameOf 7 [0, 2])) State.reset = some (.badArgument, []) := by decide +kernel

/-- R132, R188 to R190: what is reported, and the three resets. -/
theorem test_reset_rows :
    (Testing.answerTo (.readStatus Testing.bare) State.reset).map (fun a => a.2.length) = some 61 ∧
    (Testing.after (.resetCommand Testing.bare) Testing.stuck).link.response = some ⟨9, 0x7F, .ok, []⟩ ∧
    (Testing.after (.resetCommand Testing.bare) Testing.stuck).link.cause = .command ∧
    (Testing.after .pinReset Testing.stuck).pins.faults = [⟨127, 79, true⟩] ∧
    (Testing.after .powerOnReset Testing.stuck).pins.faults = [] ∧
    (Testing.after .refillUnitArrival (Testing.after .resetPinAsserted State.reset)).drive.level = 0 := by
  decide +kernel

end
end

section
/-! SUPPORT. The Page Directory's layer: what a search finds, what each operation on the directory does to an entry, and how
an event may change the pages so that they go on agreeing (R1 to R3, R7, R8, R10, R22). -/

namespace Sys2Proof.Machine

/-! ### Searches and updates -/

/-- Reading a vector after one place was set. -/
theorem getElem_set_fin {α : Type} {n : Nat} (v : Vector α n) (i j : Fin n) (x : α) :
    (v.set i x)[j] = if j = i then x else v[j] := by
  simp [Vector.getElem_set, Fin.ext_iff, eq_comm]

/-- A search of the indexes in ascending order finds the least one. -/
theorem find_finRange_eq_some {n : Nat} {p : Fin n → Bool} {i : Fin n} :
    (List.finRange n).find? p = some i ↔ LeastIndex (fun j => p j = true) i := by
  rw [List.find?_eq_some_iff_getElem]
  constructor
  · rintro ⟨hp, k, hk, rfl, hlt⟩
    refine ⟨hp, fun j hj => ?_⟩
    have := hlt j.val (by simpa [Fin.lt_def] using hj)
    simpa using this
  · rintro ⟨hp, hlt⟩
    refine ⟨hp, i.val, by simp, by simp, fun j hj => ?_⟩
    simpa using hlt ⟨j, by omega⟩ hj

/-- Where at most one index satisfies the test, the search finds exactly that one. -/
theorem find_finRange_unique {n : Nat} {p : Fin n → Bool} {i : Fin n}
    (h : ∀ j k : Fin n, p j = true → p k = true → j = k) :
    (List.finRange n).find? p = some i ↔ p i = true := by
  rw [find_finRange_eq_some]
  exact ⟨And.left, fun hi => ⟨hi, fun j hj hp => absurd (h j i hp hi) (Fin.ne_of_lt hj)⟩⟩

theorem Entry.visible_iff (e : Entry) : e.visible = true ↔ e.state = .ready ∨ e.state = .shown := by
  simp [Entry.visible]

theorem Directory.visibleEntry_some {d : Directory} {k : Key} {i : Fin 48} (h : d.visibleEntry k = some i) :
    d.entries[i].visible = true ∧ d.entries[i].key = some k := by
  have := (find_finRange_eq_some.mp h).1
  simpa using this

theorem Directory.visibleEntry_none {d : Directory} {k : Key} :
    d.visibleEntry k = none ↔ ∀ i : Fin 48, d.entries[i].visible = true → d.entries[i].key ≠ some k := by
  simp [Directory.visibleEntry]

theorem Directory.loadingEntry_some {d : Directory} {k : Key} {i : Fin 48} (h : d.loadingEntry k = some i) :
    d.entries[i].state = .loading ∧ d.entries[i].key = some k := by
  have := (find_finRange_eq_some.mp h).1
  simpa using this

theorem Directory.loadingEntry_none {d : Directory} {k : Key} :
    d.loadingEntry k = none ↔ ∀ i : Fin 48, d.entries[i].state = .loading → d.entries[i].key ≠ some k := by
  simp [Directory.loadingEntry]

theorem Directory.shownEntry_some {d : Directory} {i : Fin 48} (h : d.shownEntry = some i) :
    d.entries[i].state = .shown := by
  simpa using (find_finRange_eq_some.mp h).1

theorem Directory.shownEntry_none {d : Directory} :
    d.shownEntry = none ↔ ∀ i : Fin 48, d.entries[i].state ≠ .shown := by
  simp [Directory.shownEntry]

theorem Decoder.slotOfKey_none {d : Decoder} {k : Key} :
    d.slotOfKey k = none ↔ ∀ i : Fin 2, ∀ r ∈ d.slots[i], r.key ≠ k := by
  simp [Decoder.slotOfKey]

theorem Decoder.slotOfKey_some {d : Decoder} {k : Key} {i : Fin 2} :
    d.slotOfKey k = some i ↔ LeastIndex (fun j : Fin 2 => ∃ r ∈ d.slots[j], r.key = k) i := by
  have : ∀ j : Fin 2, (d.slots[j].map LoadSlot.key == some k) = true ↔ ∃ r ∈ d.slots[j], r.key = k := by simp
  simp only [Decoder.slotOfKey, find_finRange_eq_some, this]

theorem Decoder.lowestIdle_some {d : Decoder} {i : Fin 2} (h : d.lowestIdle = some i) : d.slots[i] = none := by
  simpa using (find_finRange_eq_some.mp h).1

/-- R25: a chosen entry is FREE, or it is reclaimed: it stands in the queue and is not HELD. -/
theorem Directory.chooseEntry_some {d : Directory} {i : Fin 48} {reclaimed : Bool}
    (h : d.chooseEntry = some (i, reclaimed)) :
    (reclaimed = false ∧ d.entries[i].state = .free) ∨
      (reclaimed = true ∧ i ∈ d.queue ∧ d.entries[i].held = false) := by
  unfold Directory.chooseEntry at h
  split at h
  · rename_i j hj
    obtain ⟨rfl, rfl⟩ : j = i ∧ false = reclaimed := by simpa using h
    exact .inl ⟨rfl, by simpa using (find_finRange_eq_some.mp hj).1⟩
  · obtain ⟨j, hj, rfl, rfl⟩ : ∃ j, d.reclaimable = some j ∧ j = i ∧ true = reclaimed := by simpa using h
    exact .inr ⟨rfl, List.mem_of_find?_eq_some hj, by simpa using List.find?_some hj⟩

/-! ### What the operations do to an entry, to the queue and to the frames -/

theorem Directory.setEntry_entry (d : Directory) (i j : Fin 48) (e : Entry) :
    (d.setEntry i e).entries[j] = if j = i then e else d.entries[j] := getElem_set_fin _ _ _ _

@[simp] theorem Directory.setEntry_queue (d : Directory) (i : Fin 48) (e : Entry) :
    (d.setEntry i e).queue = d.queue := rfl
@[simp] theorem Directory.setEntry_frames (d : Directory) (i : Fin 48) (e : Entry) :
    (d.setEntry i e).frames = d.frames := rfl

theorem Directory.freeEntry_entry (d : Directory) (i j : Fin 48) :
    (d.freeEntry i).entries[j] = if j = i then Entry.free else d.entries[j] := getElem_set_fin _ _ _ _

@[simp] theorem Directory.freeEntry_queue (d : Directory) (i : Fin 48) :
    (d.freeEntry i).queue = d.queue.filter (· ≠ i) := rfl
@[simp] theorem Directory.freeEntry_frames (d : Directory) (i : Fin 48) : (d.freeEntry i).frames = d.frames := rfl

@[simp] theorem Directory.joinQueue_entries (d : Directory) (i : Fin 48) : (d.joinQueue i).entries = d.entries := by
  unfold Directory.joinQueue; split <;> rfl
@[simp] theorem Directory.joinQueue_frames (d : Directory) (i : Fin 48) : (d.joinQueue i).frames = d.frames := by
  unfold Directory.joinQueue; split <;> rfl

/-- R10: what the queue holds after an entry was offered to it. -/
theorem Directory.joinQueue_queue (d : Directory) (i : Fin 48) :
    (d.joinQueue i).queue =
      if d.entries[i].state = .ready ∧ d.entries[i].pinned = false ∧ i ∉ d.queue then d.queue ++ [i] else d.queue := by
  unfold Directory.joinQueue
  simp only [Bool.and_eq_true, beq_iff_eq, Bool.not_eq_true', List.contains_eq_mem, decide_eq_false_iff_not, and_assoc]
  split <;> rfl

@[simp] theorem Directory.leaveQueue_entries (d : Directory) (i : Fin 48) : (d.leaveQueue i).entries = d.entries := rfl
@[simp] theorem Directory.leaveQueue_queue (d : Directory) (i : Fin 48) :
    (d.leaveQueue i).queue = d.queue.filter (· ≠ i) := rfl
@[simp] theorem Directory.leaveQueue_frames (d : Directory) (i : Fin 48) : (d.leaveQueue i).frames = d.frames := rfl

theorem Directory.setPinned_entry (d : Directory) (i j : Fin 48) (p : Bool) :
    (d.setPinned i p).entries[j] = if j = i then { d.entries[i] with pinned := p } else d.entries[j] := by
  unfold Directory.setPinned
  cases p <;> simp only [Bool.false_eq_true, if_false, if_true, Directory.joinQueue_entries,
    Directory.leaveQueue_entries, Directory.setEntry_entry]

/-- R10, R20: what the queue holds after a pinned value was set. -/
theorem Directory.setPinned_queue (d : Directory) (i : Fin 48) (p : Bool) :
    (d.setPinned i p).queue =
      if p then d.queue.filter (· ≠ i)
      else if d.entries[i].state = .ready ∧ i ∉ d.queue then d.queue ++ [i] else d.queue := by
  unfold Directory.setPinned
  cases p
  · simp [Directory.joinQueue_queue, Directory.setEntry_entry, -Fin.getElem_fin]
  · simp

@[simp] theorem Directory.setPinned_frames (d : Directory) (i : Fin 48) (p : Bool) :
    (d.setPinned i p).frames = d.frames := by
  unfold Directory.setPinned; cases p <;> simp

theorem Decoder.setSlot_slot (d : Decoder) (i j : Fin 2) (x : Option LoadSlot) :
    (d.setSlot i x).slots[j] = if j = i then x else d.slots[j] := getElem_set_fin _ _ _ _

/-- An entry offered to an exact queue without it stands in it afterwards if it is READY and unpinned, and the queue holds
each entry once. -/
theorem Directory.mem_joinQueue (d : Directory) (i j : Fin 48) :
    j ∈ (d.joinQueue i).queue ↔
      j ∈ d.queue ∨ (j = i ∧ d.entries[i].state = .ready ∧ d.entries[i].pinned = false) := by
  rw [Directory.joinQueue_queue]
  split
  · rename_i h
    rw [List.mem_append, List.mem_singleton, and_iff_left ⟨h.1, h.2.1⟩]
  · rename_i h
    refine ⟨.inl, fun h' => h'.elim id fun ⟨hj, hs, hp⟩ => ?_⟩
    by_contra hn
    exact h ⟨hs, hp, hj ▸ hn⟩

theorem Directory.joinQueue_nodup (d : Directory) (i : Fin 48) (h : d.queue.Nodup) : (d.joinQueue i).queue.Nodup := by
  rw [Directory.joinQueue_queue]
  split
  · rename_i hi
    exact List.nodup_append.mpr ⟨h, by simp, by rintro a ha b hb rfl; simp_all⟩
  · exact h

end Sys2Proof.Machine
end

section
/-! SUPPORT. How an event may change the pages so that they go on agreeing: one lemma per kind of change. Each is stated by what
every entry and every slot becomes, so that it serves every row that makes such a change. -/

namespace Sys2Proof.Machine

/-- Of a slot's record, what its entry must agree with (R2, R22). -/
def LoadSlot.page (r : LoadSlot) : Fin 48 × Key × Kind := (r.entry, r.key, r.kind)

/-- The entries' contents change: their states, keys, slots and pins stay. -/
theorem State.PagesAgree.same {s t : State} (h : s.PagesAgree)
    (shaped : ∀ j : Fin 48, t.dir.entries[j].Shaped)
    (state : ∀ j : Fin 48, t.dir.entries[j].state = s.dir.entries[j].state)
    (key : ∀ j : Fin 48, t.dir.entries[j].key = s.dir.entries[j].key)
    (kind : ∀ j : Fin 48, t.dir.entries[j].kind = s.dir.entries[j].kind)
    (slot : ∀ j : Fin 48, t.dir.entries[j].slot = s.dir.entries[j].slot)
    (pinned : ∀ j : Fin 48, t.dir.entries[j].pinned = s.dir.entries[j].pinned)
    (queue : t.dir.queue = s.dir.queue)
    (slots : ∀ i : Fin 2, t.load.slots[i].map LoadSlot.page = s.load.slots[i].map LoadSlot.page)
    (shownKey : t.nav.shownKey = s.nav.shownKey) (held : t.HeldByTheSweep) : t.PagesAgree := by
  obtain ⟨-, ⟨hfill, hfilled, hkeys⟩, hunique, hqueue, hshown, -⟩ := h
  have record : ∀ i : Fin 2, ∀ r ∈ t.load.slots[i], ∃ r' ∈ s.load.slots[i], r'.page = r.page := fun i r hr => by
    have := slots i
    rw [Option.mem_def.mp hr] at this
    simpa using this.symm
  have entry : ∀ i : Fin 2, t.load.slots[i].map LoadSlot.entry = s.load.slots[i].map LoadSlot.entry := fun i => by
    simpa [Function.comp_def, LoadSlot.page] using congrArg (Option.map Prod.fst) (slots i)
  have visible : ∀ j : Fin 48, t.dir.entries[j].visible = s.dir.entries[j].visible := fun j => by
    simp only [Entry.visible, state]
  refine ⟨shaped, ⟨fun i r hr => ?_, fun j hj => ?_, fun r hr q hq => ?_⟩, ?_, ?_, ?_, held⟩
  · obtain ⟨r', hr', e⟩ := record i r hr
    simp only [LoadSlot.page, Prod.mk.injEq] at e
    obtain ⟨e1, e2, e3⟩ := e
    simp only [← e1, ← e2, ← e3, state, slot, key, kind]
    exact hfill i r' hr'
  · obtain ⟨i, hi⟩ := hfilled j (by rw [← state]; exact hj)
    exact ⟨i, by rw [entry]; exact hi⟩
  · obtain ⟨r', hr', er⟩ := record 0 r hr
    obtain ⟨q', hq', eq⟩ := record 1 q hq
    simp only [LoadSlot.page, Prod.mk.injEq] at er eq
    rw [← er.2.1, ← eq.2.1]
    exact hkeys r' hr' q' hq'
  · simpa only [Directory.KeysUnique, visible, key] using hunique
  · simpa only [Directory.QueueExact, queue, state, pinned] using hqueue
  · simpa only [State.ShownAgrees, shownKey, state, key] using hshown

/-- Only what the pages do not speak of has changed. -/
theorem State.PagesAgree.congr {s t : State} (h : s.PagesAgree) (entries : t.dir.entries = s.dir.entries)
    (queue : t.dir.queue = s.dir.queue) (slots : t.load.slots = s.load.slots)
    (sweep : t.sweep = s.sweep) (shownKey : t.nav.shownKey = s.nav.shownKey) : t.PagesAgree := by
  refine h.same ?_ ?_ ?_ ?_ ?_ ?_ queue (fun i => by rw [slots]) shownKey ?_
  case refine_1 => rw [entries]; exact h.1
  case refine_7 => simpa only [State.HeldByTheSweep, entries, sweep] using h.2.2.2.2.2
  all_goals exact fun j => by rw [entries]

/-! ### The parts of the agreement, one by one -/

theorem Entry.visible_ne_loading {e : Entry} (h : e.visible = true) : e.state ≠ .loading := by
  rw [Entry.visible_iff] at h
  rcases h with h | h <;> rw [h] <;> simp

theorem Entry.visible_ne_free {e : Entry} (h : e.visible = true) : e.state ≠ .free := by
  rw [Entry.visible_iff] at h
  rcases h with h | h <;> rw [h] <;> simp

theorem Entry.visible_of_state {e e' : Entry} (h : e'.state = e.state) : e'.visible = e.visible := by
  rw [Entry.visible, Entry.visible, h]

/-- R1: a visible entry holds a key and is filled by no slot. -/
theorem Entry.Shaped.of_visible {e : Entry} (visible : e.visible = true) (key : e.key ≠ none) (slot : e.slot = none) :
    e.Shaped :=
  ⟨fun h => absurd h (Entry.visible_ne_free visible), fun _ => key,
    fun h => absurd h (Entry.visible_ne_loading visible), fun _ => slot⟩

theorem Entry.free_shaped : Entry.free.Shaped := by decide

/-- The load slots agree with their entries when neither these nor the LOADING entries change. -/
theorem State.SlotsMatch.congr {s t : State} (h : s.SlotsMatch) (slots : t.load.slots = s.load.slots)
    (loading : ∀ j : Fin 48, s.dir.entries[j].state = .loading → t.dir.entries[j] = s.dir.entries[j])
    (none : ∀ j : Fin 48, t.dir.entries[j].state = .loading → s.dir.entries[j].state = .loading) : t.SlotsMatch := by
  obtain ⟨hfill, hfilled, hkeys⟩ := h
  refine ⟨fun i r hr => ?_, fun j hj => ?_, ?_⟩
  · have own := hfill i r (by rwa [slots] at hr)
    rw [loading _ own.1]
    exact own
  · rw [slots]; exact hfilled j (none j hj)
  · rw [slots]; exact hkeys

/-- Keys stay unique when those of all entries but `i` stay, and `i`, if it is visible, holds another than they do. -/
theorem Directory.KeysUnique.update {d d' : Directory} (i : Fin 48) (h : d.KeysUnique)
    (others : ∀ j : Fin 48, j ≠ i → d'.entries[j].visible = true →
      d.entries[j].visible = true ∧ d'.entries[j].key = d.entries[j].key)
    (own : ∀ j : Fin 48, j ≠ i → d'.entries[j].visible = true → d'.entries[i].visible = true →
      d'.entries[j].key ≠ d'.entries[i].key) : d'.KeysUnique := by
  intro a b ha hb hab
  by_cases hai : a = i <;> by_cases hbi : b = i
  · rw [hai, hbi]
  · subst hai; exact absurd hab.symm (own b hbi hb ha)
  · subst hbi; exact absurd hab (own a hai ha hb)
  · obtain ⟨va, ka⟩ := others a hai ha
    obtain ⟨vb, kb⟩ := others b hbi hb
    exact h a b va vb (by rw [← ka, ← kb, hab])

/-- The SHOWN entry stays SHOWN, and navigation names its key. -/
theorem State.ShownAgrees.update {s t : State} (h : s.ShownAgrees)
    (shown : ∀ j : Fin 48, t.dir.entries[j].state = .shown ↔ s.dir.entries[j].state = .shown)
    (named : ∀ j : Fin 48, t.dir.entries[j].state = .shown → t.nav.shownKey = t.dir.entries[j].key)
    (none : t.nav.shownKey ≠ none → s.nav.shownKey = Option.none → ∃ j : Fin 48, t.dir.entries[j].state = .shown) :
    t.ShownAgrees := by
  refine ⟨fun a b ha hb => h.1 a b ((shown a).mp ha) ((shown b).mp hb), named, fun hk => ?_⟩
  by_cases old : s.nav.shownKey = Option.none
  · exact none hk old
  · obtain ⟨j, hj⟩ := h.2.2 old
    exact ⟨j, (shown j).mpr hj⟩

/-- Neither the SHOWN entry's key nor navigation's has changed. -/
theorem State.ShownAgrees.same {s t : State} (h : s.ShownAgrees)
    (shown : ∀ j : Fin 48, t.dir.entries[j].state = .shown ↔ s.dir.entries[j].state = .shown)
    (key : ∀ j : Fin 48, s.dir.entries[j].state = .shown → t.dir.entries[j].key = s.dir.entries[j].key)
    (shownKey : t.nav.shownKey = s.nav.shownKey) : t.ShownAgrees :=
  h.update shown (fun j hj => by rw [shownKey, key j ((shown j).mp hj)]; exact h.2.1 j ((shown j).mp hj))
    fun hk old => absurd (shownKey.trans old) hk

/-- Entries that are HELD were HELD before, and stay visible. -/
theorem State.HeldByTheSweep.update {s t : State} (h : s.HeldByTheSweep) (sweep : t.sweep = s.sweep)
    (held : ∀ j : Fin 48, t.dir.entries[j].held = true → s.dir.entries[j].held = true ∧
      (s.dir.entries[j].visible = true → t.dir.entries[j].visible = true)) : t.HeldByTheSweep := fun j hj => by
  obtain ⟨was, stays⟩ := held j hj
  rw [sweep]
  exact ⟨stays (h j was).1, (h j was).2⟩

/-! ### The changes -/

/-- A visible entry `i` becomes `e`: it stays in its state, keeps its key or takes one that no visible entry holds, and
the queue follows its pinned value. -/
theorem State.PagesAgree.edit {s t : State} {i : Fin 48} {e : Entry} (h : s.PagesAgree)
    (entries : ∀ j : Fin 48, t.dir.entries[j] = if j = i then e else s.dir.entries[j])
    (slots : t.load.slots = s.load.slots) (sweep : t.sweep = s.sweep)
    (visible : s.dir.entries[i].visible = true) (state : e.state = s.dir.entries[i].state)
    (slot : e.slot = s.dir.entries[i].slot)
    (key : e.key = s.dir.entries[i].key ∨
      (e.key ≠ none ∧ ∀ j : Fin 48, s.dir.entries[j].visible = true → s.dir.entries[j].key ≠ e.key))
    (held : e.held = true → s.dir.entries[i].held = true)
    (nodup : t.dir.queue.Nodup)
    (queue : ∀ j : Fin 48, j ∈ t.dir.queue ↔ if j = i then e.state = .ready ∧ e.pinned = false else j ∈ s.dir.queue)
    (shownKey : t.nav.shownKey = if e.state = .shown then e.key else s.nav.shownKey) : t.PagesAgree := by
  obtain ⟨hshaped, hslots, hunique, hqueue, hshown, hheld⟩ := h
  have own : t.dir.entries[i] = e := by rw [entries, if_pos rfl]
  have other : ∀ j : Fin 48, j ≠ i → t.dir.entries[j] = s.dir.entries[j] := fun j hj => by rw [entries, if_neg hj]
  have states : ∀ j : Fin 48, t.dir.entries[j].state = s.dir.entries[j].state := fun j => by
    by_cases hj : j = i
    · subst hj; rw [own, state]
    · rw [other j hj]
  have stays : e.visible = true := (Entry.visible_of_state state).trans visible
  have ownShape := hshaped i
  have keyed : e.key ≠ none := by
    rcases key with same | ⟨ne, -⟩
    · rw [same]; exact ownShape.2.1 (Entry.visible_ne_free visible)
    · exact ne
  refine ⟨fun j => ?_, hslots.congr slots (fun j hj => other j ?_) (fun j hj => by rw [← states]; exact hj),
    hunique.update i (fun j hj => by rw [other j hj]; exact fun hv => ⟨hv, rfl⟩) fun j hj hv _ => ?_,
    ⟨nodup, fun j => ?_⟩, hshown.update (fun j => by rw [states]) (fun j hj => ?_) fun hk old => ⟨i, ?_⟩,
    hheld.update sweep fun j hj => ?_⟩
  · by_cases hj : j = i
    · subst hj
      rw [own]
      exact .of_visible stays keyed (slot.trans (ownShape.2.2.2 (Entry.visible_ne_loading visible)))
    · rw [other j hj]; exact hshaped j
  · rintro rfl; exact Entry.visible_ne_loading visible hj
  · rw [other j hj] at hv ⊢
    rw [own]
    rcases key with same | ⟨-, new⟩
    · rw [same]; exact fun eq => hj (hunique j i hv visible eq)
    · exact new j hv
  · by_cases hj : j = i
    · subst hj; rw [queue, if_pos rfl, own]
    · rw [queue, if_neg hj, other j hj]; exact hqueue.2 j
  · by_cases hji : j = i
    · subst hji
      rw [own] at hj ⊢
      rw [shownKey, if_pos hj]
    · rw [other j hji] at hj ⊢
      have : e.state ≠ .shown := fun he => hji (hshown.1 j i hj (state ▸ he))
      rw [shownKey, if_neg this]; exact hshown.2.1 j hj
  · by_contra hn
    rw [own] at hn
    rw [shownKey, if_neg hn] at hk
    exact hk old
  · by_cases hji : j = i
    · subst hji; rw [own] at hj ⊢; exact ⟨held hj, fun _ => stays⟩
    · rw [other j hji] at hj ⊢; exact ⟨hj, id⟩

/-- An entry `i` that is not SHOWN becomes FREE: it leaves the queue, and the slot that fills it, if one does, is IDLE. -/
theorem State.PagesAgree.free {s t : State} {i : Fin 48} (h : s.PagesAgree)
    (entries : ∀ j : Fin 48, t.dir.entries[j] = if j = i then Entry.free else s.dir.entries[j])
    (queue : t.dir.queue = s.dir.queue.filter (· ≠ i))
    (slots : ∀ k : Fin 2, t.load.slots[k] =
      if s.load.slots[k].map LoadSlot.entry = some i then none else s.load.slots[k])
    (sweep : t.sweep = s.sweep) (shownKey : t.nav.shownKey = s.nav.shownKey)
    (notShown : s.dir.entries[i].state ≠ .shown) : t.PagesAgree := by
  obtain ⟨hshaped, ⟨hfill, hfilled, hkeys⟩, hunique, hqueue, hshown, hheld⟩ := h
  have own : t.dir.entries[i] = Entry.free := by rw [entries, if_pos rfl]
  have other : ∀ j : Fin 48, j ≠ i → t.dir.entries[j] = s.dir.entries[j] := fun j hj => by rw [entries, if_neg hj]
  have notFreed : ∀ j : Fin 48, t.dir.entries[j].state ≠ .free → j ≠ i := by
    rintro j hj rfl; rw [own] at hj; exact hj rfl
  have mem : ∀ k : Fin 2, ∀ r ∈ t.load.slots[k], r ∈ s.load.slots[k] ∧ r.entry ≠ i := fun k r hr => by
    rw [slots] at hr
    split at hr
    · exact absurd hr (by simp)
    · rename_i hne
      exact ⟨hr, fun e => hne (by rw [Option.mem_def.mp hr, Option.map_some, e])⟩
  refine ⟨fun j => ?_, ⟨fun k r hr => ?_, fun j hj => ?_, fun r hr q hq => ?_⟩,
    hunique.update i (fun j hj => by rw [other j hj]; exact fun hv => ⟨hv, rfl⟩) (fun j hj _ hv => ?_),
    ⟨?_, fun j => ?_⟩, hshown.same (fun j => ?_) (fun j hj => ?_) shownKey, hheld.update sweep fun j hj => ?_⟩
  · by_cases hj : j = i
    · subst hj; rw [own]; exact Entry.free_shaped
    · rw [other j hj]; exact hshaped j
  · obtain ⟨hr', hne⟩ := mem k r hr
    rw [other _ hne]
    exact hfill k r hr'
  · have hne : j ≠ i := notFreed j (by rw [hj]; simp)
    rw [other j hne] at hj
    obtain ⟨k, hk⟩ := hfilled j hj
    exact ⟨k, by rw [slots, if_neg (by rw [hk]; simpa using hne), hk]⟩
  · exact hkeys r (mem 0 r hr).1 q (mem 1 q hq).1
  · rw [own] at hv; cases hv
  · rw [queue]; exact hqueue.1.filter _
  · rw [queue, List.mem_filter]
    by_cases hj : j = i
    · subst hj; rw [own]; simp [Entry.free]
    · rw [other j hj]; simpa [hj] using hqueue.2 j
  · by_cases hj : j = i
    · subst hj; rw [own]; exact ⟨nofun, fun hs => absurd hs notShown⟩
    · rw [other j hj]
  · rw [other j (by rintro rfl; exact notShown hj)]
  · have hne : j ≠ i := by rintro rfl; rw [own] at hj; cases hj
    rw [other j hne] at hj ⊢
    exact ⟨hj, id⟩

/-- R12, R25: an entry that is FREE or reclaimed becomes LOADING, filled by the IDLE slot `k` with a key that no slot
holds. -/
theorem State.PagesAgree.opened {s t : State} {k : Fin 2} {e : Entry} {r : LoadSlot} (h : s.PagesAgree)
    (entries : ∀ j : Fin 48, t.dir.entries[j] = if j = r.entry then e else s.dir.entries[j])
    (queue : t.dir.queue = s.dir.queue.filter (· ≠ r.entry))
    (slots : ∀ j : Fin 2, t.load.slots[j] = if j = k then some r else s.load.slots[j])
    (sweep : t.sweep = s.sweep) (shownKey : t.nav.shownKey = s.nav.shownKey)
    (given : s.dir.entries[r.entry].state = .free ∨ r.entry ∈ s.dir.queue) (idle : s.load.slots[k] = none)
    (newKey : ∀ j : Fin 2, ∀ q ∈ s.load.slots[j], q.key ≠ r.key)
    (loading : e.state = .loading ∧ e.slot = some k ∧ e.key = some r.key ∧ e.kind = r.kind)
    (fresh : e.revision = 0 ∧ e.held = false) : t.PagesAgree := by
  obtain ⟨hshaped, ⟨hfill, hfilled, hkeys⟩, hunique, hqueue, hshown, hheld⟩ := h
  obtain ⟨state, slot, key, kind⟩ := loading
  have own : t.dir.entries[r.entry] = e := by rw [entries, if_pos rfl]
  have other : ∀ j : Fin 48, j ≠ r.entry → t.dir.entries[j] = s.dir.entries[j] := fun j hj => by
    rw [entries, if_neg hj]
  have was : s.dir.entries[r.entry].state = .free ∨ s.dir.entries[r.entry].state = .ready :=
    given.imp_right fun hq => ((hqueue.2 r.entry).mp hq).1
  have notLoading : s.dir.entries[r.entry].state ≠ .loading := by rcases was with h | h <;> rw [h] <;> simp
  have notShown : s.dir.entries[r.entry].state ≠ .shown := by rcases was with h | h <;> rw [h] <;> simp
  have notVisible : e.visible ≠ true := fun hv => Entry.visible_ne_loading hv state
  have mem : ∀ j : Fin 2, ∀ q ∈ t.load.slots[j], (j = k ∧ q = r) ∨ q ∈ s.load.slots[j] := fun j q hq => by
    rw [slots] at hq
    split at hq
    · exact .inl ⟨by assumption, (Option.some.inj hq).symm⟩
    · exact .inr hq
  refine ⟨fun j => ?_, ⟨fun j q hq => ?_, fun j hj => ?_, fun p hp q hq => ?_⟩,
    hunique.update r.entry (fun j hj => by rw [other j hj]; exact fun hv => ⟨hv, rfl⟩)
      (fun j _ _ hv => absurd (own ▸ hv) notVisible),
    ⟨?_, fun j => ?_⟩, hshown.same (fun j => ?_) (fun j hj => ?_) shownKey, hheld.update sweep fun j hj => ?_⟩
  · by_cases hj : j = r.entry
    · subst hj
      rw [own]
      refine ⟨fun hf => ?_, fun _ => ?_, fun _ => fresh, fun hl => absurd state hl⟩
      · rw [state] at hf; cases hf
      · rw [key]; simp
    · rw [other j hj]; exact hshaped j
  · rcases mem j q hq with ⟨rfl, rfl⟩ | old
    · rw [own]; exact ⟨state, slot, key, kind⟩
    · have was := hfill j q old
      have hne : q.entry ≠ r.entry := fun e => notLoading (by
        simp only [← e]; exact was.1)
      rw [other _ hne]; exact was
  · by_cases hji : j = r.entry
    · exact ⟨k, by rw [slots, if_pos rfl, Option.map_some, hji]⟩
    · rw [other j hji] at hj
      obtain ⟨m, hm⟩ := hfilled j hj
      have hmk : m ≠ k := by rintro rfl; rw [idle] at hm; cases hm
      exact ⟨m, by rw [slots, if_neg hmk]; exact hm⟩
  · rcases mem 0 p hp with ⟨hk, rfl⟩ | hp <;> rcases mem 1 q hq with ⟨hk', rfl⟩ | hq
    · rw [← hk] at hk'; cases hk'
    · exact (newKey 1 q hq).symm
    · exact newKey 0 p hp
    · exact hkeys p hp q hq
  · rw [queue]; exact hqueue.1.filter _
  · rw [queue, List.mem_filter]
    by_cases hj : j = r.entry
    · subst hj; rw [own, state]; simp
    · rw [other j hj]; simpa [hj] using hqueue.2 j
  · by_cases hj : j = r.entry
    · subst hj; rw [own, state]; exact ⟨nofun, fun hs => absurd hs notShown⟩
    · rw [other j hj]
  · rw [other j (by rintro rfl; exact notShown hj)]
  · have hne : j ≠ r.entry := by rintro rfl; rw [own, fresh.2] at hj; cases hj
    rw [other j hne] at hj ⊢
    exact ⟨hj, id⟩

/-- R23: a load has ended: its slot `k` is IDLE, its entry is no more LOADING, and the other load stays. -/
theorem State.SlotsMatch.unload {s t : State} {k : Fin 2} {r : LoadSlot} (h : s.SlotsMatch)
    (filled : s.load.slots[k] = some r)
    (slots : ∀ j : Fin 2, t.load.slots[j] = if j = k then none else s.load.slots[j])
    (same : ∀ j : Fin 48, j ≠ r.entry → s.dir.entries[j].state = .loading → t.dir.entries[j] = s.dir.entries[j])
    (ended : ∀ j : Fin 48, t.dir.entries[j].state = .loading → j ≠ r.entry ∧ s.dir.entries[j].state = .loading) :
    t.SlotsMatch := by
  obtain ⟨hfill, hfilled, hkeys⟩ := h
  have mem : ∀ j : Fin 2, ∀ q ∈ t.load.slots[j], j ≠ k ∧ q ∈ s.load.slots[j] := fun j q hq => by
    rw [slots] at hq
    split at hq
    · exact absurd hq (by simp)
    · exact ⟨by assumption, hq⟩
  refine ⟨fun j q hq => ?_, fun j hj => ?_, fun p hp q hq => hkeys p (mem 0 p hp).2 q (mem 1 q hq).2⟩
  · obtain ⟨hjk, hq⟩ := mem j q hq
    have own := hfill j q hq
    have other := hfill k r filled
    have hne : q.entry ≠ r.entry := fun e => hjk (by
      have := own.2.1
      simp only [e, other.2.1, Option.some.injEq] at this
      exact this.symm)
    rw [same q.entry hne own.1]
    exact own
  · obtain ⟨hne, hs⟩ := ended j hj
    obtain ⟨m, hm⟩ := hfilled j hs
    refine ⟨m, ?_⟩
    rw [slots, if_neg]
    · exact hm
    · rintro rfl
      rw [filled] at hm
      exact hne (by simpa using hm.symm)

/-- R43: the LOADING entry that slot `k` fills becomes READY with a key that no visible entry holds, and joins the queue
if it is unpinned; the slot is IDLE. -/
theorem State.PagesAgree.placed {s t : State} {k : Fin 2} {e : Entry} {r : LoadSlot} (h : s.PagesAgree)
    (entries : ∀ j : Fin 48, t.dir.entries[j] = if j = r.entry then e else s.dir.entries[j])
    (slots : ∀ j : Fin 2, t.load.slots[j] = if j = k then none else s.load.slots[j])
    (sweep : t.sweep = s.sweep) (shownKey : t.nav.shownKey = s.nav.shownKey)
    (filled : s.load.slots[k] = some r)
    (newKey : ∀ j : Fin 48, s.dir.entries[j].visible = true → s.dir.entries[j].key ≠ some r.key)
    (ready : e.state = .ready ∧ e.slot = none) (key : e.key = s.dir.entries[r.entry].key)
    (held : e.held = s.dir.entries[r.entry].held) (nodup : t.dir.queue.Nodup)
    (queue : ∀ j : Fin 48, j ∈ t.dir.queue ↔ j ∈ s.dir.queue ∨ (j = r.entry ∧ e.pinned = false)) :
    t.PagesAgree := by
  obtain ⟨hshaped, hslots, hunique, hqueue, hshown, hheld⟩ := h
  obtain ⟨loading, -, oldKey, -⟩ := hslots.1 k r filled
  have own : t.dir.entries[r.entry] = e := by rw [entries, if_pos rfl]
  have other : ∀ j : Fin 48, j ≠ r.entry → t.dir.entries[j] = s.dir.entries[j] := fun j hj => by
    rw [entries, if_neg hj]
  have notHeld : e.held = false := held.trans ((hshaped r.entry).2.2.1 loading).2
  have notShown : s.dir.entries[r.entry].state ≠ .shown := by rw [loading]; simp
  refine ⟨fun j => ?_, hslots.unload filled slots (fun j hj _ => other j hj) (fun j hj => ?_),
    hunique.update r.entry (fun j hj => by rw [other j hj]; exact fun hv => ⟨hv, rfl⟩) (fun j hj hv _ => ?_),
    ⟨nodup, fun j => ?_⟩, hshown.same (fun j => ?_) (fun j hj => ?_) shownKey, hheld.update sweep fun j hj => ?_⟩
  · by_cases hj : j = r.entry
    · subst hj
      rw [own]
      exact .of_visible ((Entry.visible_iff e).mpr (.inl ready.1)) (by rw [key, oldKey]; simp) ready.2
    · rw [other j hj]; exact hshaped j
  · have hne : j ≠ r.entry := by rintro rfl; rw [own, ready.1] at hj; cases hj
    rw [other j hne] at hj
    exact ⟨hne, hj⟩
  · rw [other j hj] at hv ⊢
    rw [own, key, oldKey]
    exact newKey j hv
  · rw [queue]
    by_cases hj : j = r.entry
    · subst hj
      rw [own, hqueue.2, loading]
      simp [ready.1]
    · rw [other j hj]; simpa [hj] using hqueue.2 j
  · by_cases hj : j = r.entry
    · subst hj; rw [own, ready.1]; exact ⟨nofun, fun hs => absurd hs notShown⟩
    · rw [other j hj]
  · rw [other j (by rintro rfl; exact notShown hj)]
  · have hne : j ≠ r.entry := by rintro rfl; rw [own, notHeld] at hj; cases hj
    rw [other j hne] at hj ⊢
    exact ⟨hj, id⟩

/-- R44: the LOADING entry that slot `k` fills takes the place of the visible entry `v` of its key, READY or SHOWN as
that was, and `v` becomes FREE; the slot is IDLE. -/
theorem State.PagesAgree.replaced {s t : State} {v : Fin 48} {k : Fin 2} {e : Entry} {r : LoadSlot}
    (h : s.PagesAgree)
    (entries : ∀ j : Fin 48, t.dir.entries[j] =
      if j = v then Entry.free else if j = r.entry then e else s.dir.entries[j])
    (slots : ∀ j : Fin 2, t.load.slots[j] = if j = k then none else s.load.slots[j])
    (sweep : t.sweep = s.sweep) (shownKey : t.nav.shownKey = s.nav.shownKey)
    (filled : s.load.slots[k] = some r)
    (visible : s.dir.entries[v].visible = true) (oldKey : s.dir.entries[v].key = some r.key)
    (state : e.state = s.dir.entries[v].state) (slot : e.slot = none)
    (key : e.key = s.dir.entries[r.entry].key) (held : e.held = s.dir.entries[r.entry].held)
    (nodup : t.dir.queue.Nodup)
    (queue : ∀ j : Fin 48, j ∈ t.dir.queue ↔
      j ≠ v ∧ (j ∈ s.dir.queue ∨ (j = r.entry ∧ e.state = .ready ∧ e.pinned = false))) : t.PagesAgree := by
  obtain ⟨hshaped, hslots, hunique, hqueue, hshown, hheld⟩ := h
  obtain ⟨hload, hslot, hkey, hkind⟩ := hslots.1 k r filled
  have hne : r.entry ≠ v := by
    rintro e
    simp only [e] at hload
    exact Entry.visible_ne_loading visible hload
  have ofV : t.dir.entries[v] = Entry.free := by rw [entries, if_pos rfl]
  have ofLoad : t.dir.entries[r.entry] = e := by rw [entries, if_neg hne, if_pos rfl]
  have other : ∀ j : Fin 48, j ≠ v → j ≠ r.entry → t.dir.entries[j] = s.dir.entries[j] := fun j hv hj => by
    rw [entries, if_neg hv, if_neg hj]
  have stays : e.visible = true := (Entry.visible_of_state state).trans visible
  have own := hshaped r.entry
  have eKey : e.key = some r.key := key.trans hkey
  have eHeld : e.held = false := held.trans (own.2.2.1 hload).2
  have shownThere : ∀ a : Fin 48, t.dir.entries[a].state = .shown →
      (s.dir.entries[v].state = .shown ∧ a = r.entry) ∨
        (s.dir.entries[v].state ≠ .shown ∧ t.dir.entries[a] = s.dir.entries[a]) := fun a ha => by
    have := hshown.1 a v
    rw [entries] at ha ⊢
    split_ifs at ha ⊢ with h1 h2
    · cases ha
    · exact .inl ⟨state ▸ ha, h2⟩
    · exact .inr ⟨fun hv => h1 (this ha hv), rfl⟩
  refine ⟨fun j => ?_, hslots.unload filled slots ?_ ?_, hunique.update r.entry (fun j hj => ?_) fun j hj => ?_,
    ⟨nodup, fun j => ?_⟩, ⟨fun a b => ?_, fun a => ?_, fun hn => ?_⟩, fun j => ?_⟩
  · rw [entries]; split_ifs
    · exact Entry.free_shaped
    · exact .of_visible stays (by rw [eKey]; simp) slot
    · exact hshaped j
  · intro j hj hl
    exact other j (by rintro rfl; exact Entry.visible_ne_loading visible hl) hj
  · intro j hj
    have hv : j ≠ v := by rintro rfl; rw [ofV] at hj; cases hj
    have hr : j ≠ r.entry := by rintro rfl; rw [ofLoad] at hj; exact Entry.visible_ne_loading stays hj
    rw [other j hv hr] at hj
    exact ⟨hr, hj⟩
  · rw [entries]; split_ifs
    · exact fun hf => Bool.noConfusion hf
    · exact fun hv => ⟨hv, rfl⟩
  · rw [entries, ofLoad, eKey]; split_ifs with hv
    · exact fun hf => Bool.noConfusion hf
    · exact fun hj' _ hk => hv (hunique j v hj' visible (hk.trans oldKey.symm))
  · rw [queue]
    by_cases hv : j = v
    · subst hv; rw [ofV]; simp [Entry.free]
    · by_cases hr : j = r.entry
      · subst hr
        rw [ofLoad, hqueue.2, hload]
        simp [hv]
      · rw [other j hv hr]; simpa [hv, hr] using hqueue.2 j
  · intro ha hb
    rcases shownThere a ha with ⟨hv, rfl⟩ | ⟨hv, ea⟩ <;> rcases shownThere b hb with ⟨hv', rfl⟩ | ⟨hv', eb⟩
    · rfl
    · exact absurd hv hv'
    · exact absurd hv' hv
    · exact hshown.1 a b (ea ▸ ha) (eb ▸ hb)
  · intro ha
    rw [shownKey]
    rcases shownThere a ha with ⟨hv, rfl⟩ | ⟨hv, ea⟩
    · rw [hshown.2.1 v hv, oldKey, entries, if_neg hne, if_pos rfl, eKey]
    · rw [hshown.2.1 a (ea ▸ ha), ea]
  · obtain ⟨a, ha⟩ := hshown.2.2 (shownKey ▸ hn)
    by_cases hav : a = v
    · exact ⟨r.entry, by rw [entries, if_neg hne, if_pos rfl, state, ← hav]; exact ha⟩
    · have hae : a ≠ r.entry := by rintro rfl; rw [hload] at ha; cases ha
      exact ⟨a, by rw [entries, if_neg hav, if_neg hae]; exact ha⟩
  · have := hheld j
    rw [entries, sweep]
    split_ifs
    · exact fun hf => Bool.noConfusion hf
    · simp [eHeld]
    · exact this

end Sys2Proof.Machine
end

section
/-! SUPPORT. Showing an entry (R7, R10). -/

namespace Sys2Proof.Machine

/-- R7: with no entry SHOWN, showing one makes it SHOWN and takes it out of the queue. -/
theorem Directory.showEntry_first {d : Directory} {i : Fin 48} (h : d.shownEntry = none) :
    d.showEntry i = (d.setEntry i { d.entries[i] with state := .shown }).leaveQueue i := by
  unfold Directory.showEntry; rw [h]

/-- R7: with another entry SHOWN, that becomes READY and is offered to the queue. -/
theorem Directory.showEntry_swap {d : Directory} {i j : Fin 48} (h : d.shownEntry = some j) (hij : j ≠ i) :
    d.showEntry i = ((((d.setEntry i { d.entries[i] with state := .shown }).leaveQueue i).setEntry j
      { d.entries[j] with state := .ready })).joinQueue j := by
  have e : ((d.setEntry i { d.entries[i] with state := .shown }).leaveQueue i).entries[j] = d.entries[j] := by
    rw [Directory.leaveQueue_entries, Directory.setEntry_entry, if_neg hij]
  unfold Directory.showEntry
  simp only [h, if_neg hij, e]

/-- What is SHOWN already is not the entry to be shown. -/
theorem Directory.shownEntry_ne {d : Directory} {i j : Fin 48} (h : d.shownEntry = some j)
    (hi : d.entries[i].state ≠ .shown) : j ≠ i := by
  rintro rfl; exact hi (Directory.shownEntry_some h)

/-- R7: with at most one entry SHOWN, the shown entry is the one whose state is SHOWN. -/
theorem Directory.shownEntry_iff {d : Directory}
    (h : ∀ i j : Fin 48, d.entries[i].state = .shown → d.entries[j].state = .shown → i = j) (i : Fin 48) :
    d.shownEntry = some i ↔ d.entries[i].state = .shown := by
  unfold Directory.shownEntry
  rw [find_finRange_unique (fun a b ha hb => h a b (by simpa using ha) (by simpa using hb)), beq_iff_eq]

/-- R7: every entry after an entry that was not SHOWN is shown. -/
theorem Directory.showEntry_entry {d : Directory} {i : Fin 48} (hi : d.entries[i].state ≠ .shown) (j : Fin 48) :
    (d.showEntry i).entries[j] =
      if j = i then { d.entries[i] with state := .shown }
      else if d.shownEntry = some j then { d.entries[j] with state := .ready } else d.entries[j] := by
  cases h : d.shownEntry with
  | none => simp [Directory.showEntry_first h, Directory.setEntry_entry, -Fin.getElem_fin]
  | some k =>
    have hk := Directory.shownEntry_ne h hi
    rw [Directory.showEntry_swap h hk]
    simp only [Directory.joinQueue_entries, Directory.setEntry_entry, Directory.leaveQueue_entries, Option.some.injEq]
    by_cases hjk : j = k
    · subst hjk; simp [hk]
    · simp [hjk, Ne.symm hjk]

@[simp] theorem Directory.showEntry_frames (d : Directory) (i : Fin 48) : (d.showEntry i).frames = d.frames := by
  unfold Directory.showEntry
  simp only
  split
  · split <;> simp
  · rfl

/-- R10: the queue after an entry that was not SHOWN is shown. -/
theorem Directory.showEntry_mem_queue {d : Directory} {i : Fin 48} (hi : d.entries[i].state ≠ .shown) (j : Fin 48) :
    j ∈ (d.showEntry i).queue ↔
      (j ∈ d.queue ∧ j ≠ i) ∨ (d.shownEntry = some j ∧ d.entries[j].pinned = false) := by
  cases h : d.shownEntry with
  | none => simp [Directory.showEntry_first h]
  | some k =>
    rw [Directory.showEntry_swap h (Directory.shownEntry_ne h hi), Directory.mem_joinQueue]
    simp only [Directory.setEntry_queue, Directory.leaveQueue_queue, Directory.setEntry_entry, if_true,
      Option.some.injEq, List.mem_filter, decide_eq_true_eq]
    constructor
    · rintro (h | ⟨rfl, -, h⟩)
      · exact .inl h
      · exact .inr ⟨rfl, h⟩
    · rintro (h | ⟨rfl, h⟩)
      · exact .inl h
      · exact .inr ⟨rfl, trivial, h⟩

theorem Directory.showEntry_nodup {d : Directory} {i : Fin 48} (hi : d.entries[i].state ≠ .shown)
    (hq : d.queue.Nodup) : (d.showEntry i).queue.Nodup := by
  cases h : d.shownEntry with
  | none => rw [Directory.showEntry_first h]; exact hq.filter _
  | some k =>
    rw [Directory.showEntry_swap h (Directory.shownEntry_ne h hi)]
    exact Directory.joinQueue_nodup _ _ (hq.filter _)

/-- R7: a visible entry `v` is shown, or is SHOWN already, and navigation names its key. -/
theorem State.PagesAgree.shows {s t : State} {v : Fin 48} (h : s.PagesAgree)
    (dir : t.dir = if s.dir.entries[v].state = .shown then s.dir else s.dir.showEntry v)
    (slots : t.load.slots = s.load.slots) (sweep : t.sweep = s.sweep)
    (visible : s.dir.entries[v].visible = true) (shownKey : t.nav.shownKey = s.dir.entries[v].key) : t.PagesAgree := by
  by_cases hv : s.dir.entries[v].state = .shown
  · rw [if_pos hv] at dir
    exact h.congr (by rw [dir]) (by rw [dir]) slots sweep (shownKey.trans (h.2.2.2.2.1.2.1 v hv).symm)
  rw [if_neg hv] at dir
  have entries : ∀ j : Fin 48, t.dir.entries[j] =
      if j = v then { s.dir.entries[v] with state := .shown }
      else if s.dir.entries[j].state = .shown then { s.dir.entries[j] with state := .ready }
      else s.dir.entries[j] := fun j => by
    rw [dir, Directory.showEntry_entry hv j]
    simp only [Directory.shownEntry_iff h.2.2.2.2.1.1]
  obtain ⟨hshaped, hslots, hunique, hqueue, hshown, hheld⟩ := h
  have ready : s.dir.entries[v].state = .ready := ((Entry.visible_iff _).mp visible).resolve_right hv
  have ofV : t.dir.entries[v] = { s.dir.entries[v] with state := .shown } := by rw [entries, if_pos rfl]
  have ofOld : ∀ j : Fin 48, s.dir.entries[j].state = .shown → t.dir.entries[j] = { s.dir.entries[j] with state := .ready } :=
    fun j hj => by rw [entries, if_neg (by rintro rfl; exact hv hj), if_pos hj]
  have other : ∀ j : Fin 48, j ≠ v → s.dir.entries[j].state ≠ .shown → t.dir.entries[j] = s.dir.entries[j] :=
    fun j hj hs => by rw [entries, if_neg hj, if_neg hs]
  have kept : ∀ j : Fin 48, t.dir.entries[j].visible = s.dir.entries[j].visible ∧
      t.dir.entries[j].key = s.dir.entries[j].key ∧ t.dir.entries[j].held = s.dir.entries[j].held ∧
      t.dir.entries[j].slot = s.dir.entries[j].slot := fun j => by
    by_cases hj : j = v
    · subst hj; rw [ofV]; exact ⟨visible.symm, rfl, rfl, rfl⟩
    · by_cases hs : s.dir.entries[j].state = .shown
      · rw [ofOld j hs]; exact ⟨((Entry.visible_iff _).mpr (.inr hs)).symm, rfl, rfl, rfl⟩
      · rw [other j hj hs]; exact ⟨rfl, rfl, rfl, rfl⟩
  have only : ∀ a : Fin 48, t.dir.entries[a].state = .shown → a = v := fun a ha => by
    by_contra hj
    by_cases hs : s.dir.entries[a].state = .shown
    · rw [ofOld a hs] at ha; cases ha
    · rw [other a hj hs] at ha; exact hs ha
  have unseen : ∀ j : Fin 48, s.dir.entries[j].visible ≠ true → t.dir.entries[j] = s.dir.entries[j] := fun j hj =>
    other j (by rintro rfl; exact hj visible) fun hs => hj ((Entry.visible_iff _).mpr (.inr hs))
  refine ⟨fun j => ?_, hslots.congr slots (fun j hj => unseen j fun hv => Entry.visible_ne_loading hv hj) fun j hj => ?_,
    ?_, ⟨?_, fun j => ?_⟩, ⟨fun a b => ?_, fun a ha => ?_, fun _ => ⟨v, by rw [ofV]⟩⟩, fun j => ?_⟩
  · obtain ⟨vis, key, -, slot⟩ := kept j
    by_cases hj : s.dir.entries[j].visible = true
    · have own := hshaped j
      exact .of_visible (vis.trans hj) (by rw [key]; exact own.2.1 (Entry.visible_ne_free hj))
        (slot.trans (own.2.2.2 (Entry.visible_ne_loading hj)))
    · rw [unseen j hj]; exact hshaped j
  · have : s.dir.entries[j].visible ≠ true := fun hv =>
      Entry.visible_ne_loading ((kept j).1.trans hv) hj
    rwa [unseen j this] at hj
  · simpa only [Directory.KeysUnique, kept] using hunique
  · rw [dir]; exact Directory.showEntry_nodup hv hqueue.1
  · rw [dir, Directory.showEntry_mem_queue hv, Directory.shownEntry_iff hshown.1, ← dir, hqueue.2]
    by_cases hj : j = v
    · subst hj; rw [ofV]; simp [hv, -Fin.getElem_fin]
    · by_cases hs : s.dir.entries[j].state = .shown
      · rw [ofOld j hs, hs]; simp
      · rw [other j hj hs]; simp [hj, hs, -Fin.getElem_fin]
  · exact fun ha hb => (only a ha).trans (only b hb).symm
  · rw [shownKey, only a ha, (kept v).2.1]
  · rw [(kept j).2.2.1, (kept j).1, sweep]; exact hheld j

end Sys2Proof.Machine
end

section
/-! SUPPORT. What a recomposition leaves in the target image, and what an evaluation of the wanted key does (R67, R68, R97). -/

namespace Sys2Proof.Machine

/-! ### The drive and the calendar leave the Compositor alone -/

@[simp] theorem State.startStroke_comp (s : State) (p : Plan) : (s.startStroke p).comp = s.comp := rfl

@[simp] theorem State.reportDeferred_comp (s : State) (r : Fin 128) : (s.reportDeferred r).comp = s.comp := rfl

@[simp] theorem State.holdPlan_comp (s : State) (p : Plan) : (s.holdPlan p).comp = s.comp := by
  unfold State.holdPlan; split <;> rfl

@[simp] theorem State.askDrive_comp (s : State) (r : Fin 128) : (s.askDrive r).1.comp = s.comp := by
  unfold State.askDrive
  simp only
  split
  · rfl
  · simp

@[simp] theorem State.enterIdle_comp (s : State) : s.enterIdle.comp = s.comp := by simp [State.enterIdle]

@[simp] theorem State.endVisit_comp (s : State) (v : LineVisit) : (s.endVisit v).1.comp = s.comp := by
  unfold State.endVisit
  simp only
  split_ifs <;> simp

@[simp] theorem State.rowDone_comp (s : State) (v : LineVisit) : (s.rowDone v).1.comp = s.comp := by
  unfold State.rowDone; split <;> simp

@[simp] theorem State.calendarMove_comp (s : State) : s.calendarMove.1.comp = s.comp := by
  unfold State.calendarMove
  split
  · rfl
  · rename_i v _
    have e := State.askDrive_comp s (pinRow v.line v.row)
    split
    · rename_i t he; rwa [he] at e
    · rename_i t he; rw [he] at e; rw [State.rowDone_comp]; exact e

@[simp] theorem State.runCalendar_comp (n : Nat) (s : State) : (State.runCalendar n s).comp = s.comp := by
  induction n generalizing s with
  | zero => rfl
  | succ n ih =>
    have e := State.calendarMove_comp s
    unfold State.runCalendar
    split
    · rename_i t he; rw [he] at e; rw [ih]; exact e
    · rename_i t he; rwa [he] at e

@[simp] theorem State.goOn_comp (r : State × Bool) : (State.goOn r).comp = r.1.comp := by
  unfold State.goOn; split <;> simp

@[simp] theorem State.driveOn_comp (s : State) : s.driveOn.comp = s.comp := by simp [State.driveOn]

@[simp] theorem State.wake_comp (s : State) : s.wake.comp = s.comp := by
  unfold State.wake; split <;> simp

@[simp] theorem State.rowNothing_comp (s : State) : s.rowNothing.comp = s.comp := by
  unfold State.rowNothing; split <;> simp

@[simp] theorem State.reform_comp (s : State) (rows : Fin 128 → Bool) : (s.reform rows).comp = s.comp := by
  unfold State.reform
  split
  · split
    · rename_i p _ _
      have e := State.askDrive_comp s p.row
      split
      · rename_i t he; rwa [he] at e
      · rename_i t he; rw [he] at e; rw [State.rowNothing_comp]; exact e
    · rfl
  · rfl

/-! ### The target image after a recomposition -/

/-- R97: the Compositor after the named lines were composed again. -/
theorem State.recompose_comp (s : State) (lines : List (Fin 32)) :
    (s.recompose lines).comp =
      { s.comp with target := s.newTarget lines, markPins := s.newMarkPins lines } := by
  unfold State.recompose
  simp only
  split <;> simp

theorem State.recompose_target (s : State) (lines : List (Fin 32)) (r : Fin 128) :
    (s.recompose lines).comp.target[r] = if lineOfRow r ∈ lines then s.composeRow r else s.comp.target[r] := by
  rw [State.recompose_comp]
  simp [State.newTarget]

/-- R97: composing a row reads the directory, the status line's settings, the blink phase, the zone states, and, on the
status line, whether navigation is SETTLED. -/
theorem State.composeRow_congr {s t : State} (dir : t.dir = s.dir)
    (comp : t.comp = { s.comp with target := t.comp.target, markPins := t.comp.markPins })
    (zones : ∀ z : Fin 16, t.touch.zones[z].state = s.touch.zones[z].state)
    (r : Fin 128) (cond : (t.nav.cond = .settled ↔ s.nav.cond = .settled) ∨ s.comp.statusOn = false ∨ r.val < 124) :
    t.composeRow r = s.composeRow r := by
  have source : t.lineSource (lineOfRow r) = s.lineSource (lineOfRow r) := by
    unfold State.lineSource; rw [dir, comp]
  have steady : ∀ z, t.zoneSteady z = s.zoneSteady z := fun z => by
    unfold State.zoneSteady; rw [zones]
  have text : ∀ i l, t.textCells i l = s.textCells i l := fun i l => by
    unfold State.textCells State.textCell
    simp only [dir, steady]
    rw [comp]
  have raw : ∀ i, t.rawRow i r = s.rawRow i r := fun i => by unfold State.rawRow; rw [dir]
  have status : s.lineSource (lineOfRow r) = .status → t.statusCells = s.statusCells := fun h => by
    have on : (lineOfRow r).val = 31 ∧ s.comp.statusOn = true := by
      unfold State.lineSource at h
      split at h
      · assumption
      · split at h
        · cases h
        · split at h <;> cases h
    have bottom : 124 ≤ r.val := by have := on.1; simp only [lineOfRow] at this; omega
    have cond := cond.resolve_right (by simp [on.2, bottom])
    unfold State.statusCells State.indicator
    rw [dir, comp]
    simp only [cond]
  unfold State.composeRow
  rw [source]
  cases h : s.lineSource (lineOfRow r) with
  | status => simp only [status h]
  | blank => rfl
  | text i => simp only [text]
  | raw i => simp only [raw]

/-- The pin path changes nothing that composing reads. -/
theorem PinPath.composeRow {s t : State} (h : PinPath s t) (r : Fin 128) : t.composeRow r = s.composeRow r :=
  State.composeRow_congr h.dir h.comp (fun z => by rw [h.zones z]) r (.inl (by rw [h.nav]))

/-- R97: after a recomposition the targets of its lines are what composing them gives. -/
theorem State.recompose_composed (s : State) (lines : List (Fin 32)) (r : Fin 128) (h : lineOfRow r ∈ lines) :
    (s.recompose lines).comp.target[r] = (s.recompose lines).composeRow r := by
  rw [State.recompose_target, if_pos h, (PinPath.recompose s lines).composeRow]

theorem mem_allLines (l : Fin 32) : l ∈ allLines := List.mem_finRange l

/-- R98: the rows of the status line are the last four. -/
theorem mem_statusLine {r : Fin 128} : lineOfRow r ∈ statusLine ↔ 124 ≤ r.val := by
  simp only [statusLine, List.mem_singleton, Fin.ext_iff, lineOfRow]
  change r.val / 4 = 31 ↔ _
  omega

/-! ### Evaluating the wanted key -/

/-- The pin path does not look at navigation's other fields. -/
theorem PinPath.setNav {s t : State} (h : PinPath s t) (n : Navigation) : PinPath (s.setNav n) (t.setNav n) where
  pending := h.pending
  resetPin := h.resetPin
  supplyPin := h.supplyPin
  link := h.link
  notices := h.notices
  dir := h.dir
  load := h.load
  sweep := h.sweep
  nav := rfl
  comp := h.comp
  pins := h.pins
  drive := h.drive
  hold := h.hold
  slots := h.slots
  sched := h.sched
  touch := h.touch
  zones := h.zones

/-- R7: when an entry is shown the directory takes it, and the pin path follows. -/
theorem State.showEntry_path (s : State) (i : Fin 48) :
    PinPath (s.setDir (if s.dir.entries[i].state = .shown then s.dir else s.dir.showEntry i)) (s.showEntry i) := by
  unfold State.showEntry
  split
  · exact PinPath.refl s
  · exact PinPath.recompose _ _

/-- R7, R109: when an entry that was not SHOWN is shown, the whole page is composed. -/
theorem State.showEntry_composed (s : State) (i : Fin 48) (h : s.dir.entries[i].state ≠ .shown) (r : Fin 128) :
    (s.showEntry i).comp.target[r] = (s.showEntry i).composeRow r := by
  unfold State.showEntry
  rw [if_neg h]
  exact State.recompose_composed _ _ _ (mem_allLines _)

/-- Showing an entry that was not SHOWN changes the directory. -/
theorem Directory.showEntry_ne {d : Directory} {i : Fin 48} (h : d.entries[i].state ≠ .shown) : d.showEntry i ≠ d :=
  fun e => h (by rw [← e, Directory.showEntry_entry h, if_pos rfl])

/-- R66, R109: when navigation passes between SETTLED and waiting an enabled status line is composed, and nothing happens
otherwise. -/
theorem State.tellCondition_composed (s : State) (before : NavCondition) (h : (before = .settled) ≠ (s.nav.cond = .settled))
    (on : s.comp.statusOn = true) (r : Fin 128) (hr : 124 ≤ r.val) :
    (s.tellCondition before).comp.target[r] = (s.tellCondition before).composeRow r := by
  unfold State.tellCondition
  rw [if_pos ⟨h, on⟩]
  exact State.recompose_composed _ _ _ (mem_statusLine.mpr hr)

theorem State.tellCondition_none (s : State) (before : NavCondition)
    (h : (before = .settled ↔ s.nav.cond = .settled) ∨ s.comp.statusOn = false) : s.tellCondition before = s := by
  unfold State.tellCondition
  refine if_neg fun ⟨hc, on⟩ => ?_
  rcases h with h | h
  · exact hc (propext h)
  · rw [on] at h; cases h

/-- Telling the condition keeps a composed page composed. -/
theorem State.tellCondition_keeps (s : State) (before : NavCondition) (r : Fin 128)
    (h : s.comp.target[r] = s.composeRow r ∨
      (before = .settled) ≠ (s.nav.cond = .settled) ∧ s.comp.statusOn = true ∧ 124 ≤ r.val) :
    (s.tellCondition before).comp.target[r] = (s.tellCondition before).composeRow r := by
  rcases h with h | ⟨hc, on, hr⟩
  · rw [(PinPath.tellCondition s before).composeRow]
    unfold State.tellCondition
    split
    · rw [State.recompose_target]; split
      · rfl
      · exact h
    · exact h
  · exact s.tellCondition_composed before hc on r hr

/-- What `Evaluates` asks of what follows navigation's own changes, for one that has not touched the directory. -/
theorem State.Evaluates.told {s u : State} {cause : ShownCause} {k : Key} (hk : s.nav.wantedKey = some k)
    (h : s.EvaluatedTo cause k u) (dir : u.dir = s.dir) (on : u.comp = s.comp) :
    s.Evaluates cause (u.tellCondition s.nav.cond) := by
  intro k' hk'
  obtain rfl : k = k' := by simpa using hk.symm.trans hk'
  refine ⟨u, h, PinPath.tellCondition _ _, fun hd => absurd dir hd, fun hc ho => ?_, fun _ hc => ?_⟩
  · exact u.tellCondition_composed _ hc (by rw [on]; exact ho)
  · exact u.tellCondition_none _ (by rw [on]; exact hc)

/-! ### The four results of a lookup (R3) -/

theorem Directory.lookup_visible {d : Directory} {k : Key} {i : Fin 48} :
    d.lookup k = .visible i ↔ d.visibleEntry k = some i ∧ d.entries[i].held = false := by
  unfold Directory.lookup
  cases d.visibleEntry k with
  | none => cases d.loadingEntry k <;> simp
  | some v =>
    cases hh : d.entries[v].held <;> grind

theorem Directory.lookup_held {d : Directory} {k : Key} {i : Fin 48} :
    d.lookup k = .held i ↔ d.visibleEntry k = some i ∧ d.entries[i].held = true := by
  unfold Directory.lookup
  cases d.visibleEntry k with
  | none => cases d.loadingEntry k <;> simp
  | some v =>
    cases hh : d.entries[v].held <;> grind

theorem Directory.lookup_loading {d : Directory} {k : Key} {slot : Option (Fin 2)} :
    d.lookup k = .loading slot ↔
      d.visibleEntry k = none ∧ ∃ i, d.loadingEntry k = some i ∧ d.entries[i].slot = slot := by
  unfold Directory.lookup
  cases d.visibleEntry k with
  | none => cases d.loadingEntry k <;> simp
  | some v => simp only; split <;> simp

/-- R3: absent is a key that no entry but a FREE one holds. -/
theorem Directory.lookup_absent {d : Directory} {k : Key} :
    d.lookup k = .absent ↔ ∀ i : Fin 48, d.entries[i].state ≠ .free → d.entries[i].key ≠ some k := by
  have split : d.lookup k = .absent ↔ d.visibleEntry k = none ∧ d.loadingEntry k = none := by
    unfold Directory.lookup
    cases d.visibleEntry k with
    | none => cases d.loadingEntry k <;> simp
    | some v => simp only; split <;> simp
  rw [split, Directory.visibleEntry_none, Directory.loadingEntry_none, ← forall_and]
  refine forall_congr' fun i => ?_
  rw [Entry.visible_iff]
  cases d.entries[i].state <;> simp

/-! ### What an evaluation of the wanted key does (R67, R68) -/

theorem State.evaluate_visible {s : State} {cause : ShownCause} {k : Key} {i : Fin 48} (hk : s.nav.wantedKey = some k)
    (h : s.dir.lookup k = .visible i) :
    s.evaluate cause = (((s.showEntry i).setNav { (s.showEntry i).nav with
      shownKey := some k, cond := .settled }).post (.shown k cause)).tellCondition s.nav.cond := by
  unfold State.evaluate; simp only [hk, h]

theorem State.evaluate_held {s : State} {cause : ShownCause} {k : Key} {i : Fin 48} (hk : s.nav.wantedKey = some k)
    (h : s.dir.lookup k = .held i) :
    s.evaluate cause = (s.setNav { s.nav with cond := .waitSweep }).tellCondition s.nav.cond := by
  unfold State.evaluate; simp only [hk, h]

theorem State.evaluate_loading {s : State} {cause : ShownCause} {k : Key} {slot : Option (Fin 2)}
    (hk : s.nav.wantedKey = some k) (h : s.dir.lookup k = .loading slot) :
    s.evaluate cause = (s.setNav { s.nav with cond := .waitLoad }).tellCondition s.nav.cond := by
  unfold State.evaluate; simp only [hk, h]

theorem State.evaluate_absent {s : State} {cause : ShownCause} {k : Key} (hk : s.nav.wantedKey = some k)
    (h : s.dir.lookup k = .absent) :
    s.evaluate cause =
      ((s.setNav { s.nav with cond := .waitMiss }).captureMiss k).tellCondition s.nav.cond := by
  unfold State.evaluate; simp only [hk, h]

theorem State.captureMiss_dir (s : State) (k : Key) : (s.captureMiss k).dir = s.dir := by
  unfold State.captureMiss; split <;> simp

theorem State.captureMiss_comp (s : State) (k : Key) : (s.captureMiss k).comp = s.comp := by
  unfold State.captureMiss; split <;> simp

/-- R67: a visible key's entry is shown, the whole page composed with it, and then the condition is told. -/
theorem State.evaluates_of_visible {s : State} {cause : ShownCause} {k : Key} {i : Fin 48}
    (hk : s.nav.wantedKey = some k) (h : s.dir.lookup k = .visible i) : s.Evaluates cause (s.evaluate cause) := by
  intro k' hk'
  obtain rfl : k = k' := by simpa using hk.symm.trans hk'
  obtain ⟨hv, hh⟩ := Directory.lookup_visible.mp h
  have shown := s.showEntry_path i
  have on : (s.showEntry i).comp.statusOn = s.comp.statusOn := by rw [shown.comp]; rfl
  have nav : (s.showEntry i).nav = s.nav := shown.nav
  rw [State.evaluate_visible hk h, nav]
  refine ⟨((s.setDir (if s.dir.entries[i].state = .shown then s.dir else s.dir.showEntry i)).setNav
    { s.nav with shownKey := some k, cond := .settled }).post (.shown k cause), ⟨?_, ?_, ?_, ?_⟩,
    ((shown.setNav _).post _ (by simp [Notice.kindCode])).trans (PinPath.tellCondition _ _), ?_, ?_, ?_⟩
  · intro v hv' _
    obtain rfl : i = v := by simpa using hv.symm.trans hv'
    rfl
  · intro v hv' hh'
    obtain rfl : i = v := by simpa using hv.symm.trans hv'
    rw [hh] at hh'; cases hh'
  · intro j hn; rw [hv] at hn; cases hn
  · intro ha; rw [Directory.lookup_absent.mpr ha] at h; cases h
  · intro hne r
    have notShown : s.dir.entries[i].state ≠ .shown := fun hs => hne (by
      rw [State.post_dir, State.setNav_dir, State.setDir_dir, if_pos hs])
    refine State.tellCondition_keeps _ _ _ ?_
    by_cases hc : (s.nav.cond = .settled) ∨ s.comp.statusOn = false ∨ r.val < 124
    · left
      rw [State.post_comp, State.setNav_comp, s.showEntry_composed i notShown]
      refine (State.composeRow_congr ?_ ?_ ?_ r ?_).symm
      · rw [State.post_dir, State.setNav_dir]
      · rw [State.post_comp, State.setNav_comp]
      · intro z; rw [State.post_touch, State.setNav_touch]
      · rw [State.post_nav, State.setNav_nav, on, nav]
        rcases hc with hc | hc
        · exact .inl (by simp [hc])
        · exact .inr hc
    · right
      simp only [not_or, Bool.not_eq_false, Nat.not_lt] at hc
      rw [State.post_nav, State.setNav_nav, State.post_comp, State.setNav_comp, on]
      exact ⟨by simp [hc.1], hc.2⟩
  · intro hc ho
    rw [State.post_nav, State.setNav_nav] at hc
    refine State.tellCondition_composed _ _ ?_ ?_
    · rw [State.post_nav, State.setNav_nav]; exact hc
    · rw [State.post_comp, State.setNav_comp, on]; exact ho
  · intro hd hc
    rw [State.post_dir, State.setNav_dir, State.setDir_dir] at hd
    rw [State.post_nav, State.setNav_nav] at hc
    have already : s.dir.entries[i].state = .shown := by
      by_contra hs
      rw [if_neg hs] at hd
      exact Directory.showEntry_ne hs hd
    have same : s.showEntry i = s := by unfold State.showEntry; rw [if_pos already]
    rw [same, if_pos already]
    refine State.tellCondition_none _ _ ?_
    rw [State.post_nav, State.setNav_nav, State.post_comp, State.setNav_comp]
    exact hc

/-- R67, R68: what an evaluation of the wanted key does, in every state. -/
theorem State.evaluate_evaluates (s : State) (cause : ShownCause) : s.Evaluates cause (s.evaluate cause) := by
  intro k hk
  refine (?_ : s.Evaluates cause (s.evaluate cause)) k hk
  cases h : s.dir.lookup k with
  | visible i => exact State.evaluates_of_visible hk h
  | held i =>
    obtain ⟨hv, hh⟩ := Directory.lookup_held.mp h
    rw [State.evaluate_held hk h]
    refine State.Evaluates.told hk ⟨fun v hv' hh' => ?_, fun _ _ _ => rfl, fun j hn => ?_, fun ha => ?_⟩ rfl rfl
    · obtain rfl : i = v := by simpa using hv.symm.trans hv'
      rw [hh] at hh'; cases hh'
    · rw [hv] at hn; cases hn
    · rw [Directory.lookup_absent.mpr ha] at h; cases h
  | loading slot =>
    obtain ⟨hn, -⟩ := Directory.lookup_loading.mp h
    rw [State.evaluate_loading hk h]
    refine State.Evaluates.told hk ⟨fun v hv => ?_, fun v hv => ?_, fun _ _ _ _ => rfl, fun ha => ?_⟩ rfl rfl
    · rw [hn] at hv; cases hv
    · rw [hn] at hv; cases hv
    · rw [Directory.lookup_absent.mpr ha] at h; cases h
  | absent =>
    have ha := Directory.lookup_absent.mp h
    rw [State.evaluate_absent hk h]
    have gone : ∀ v, s.dir.visibleEntry k = some v → False := fun v hv => by
      obtain ⟨hvis, hkey⟩ := Directory.visibleEntry_some hv
      exact ha v (fun hf => by rw [Entry.visible_iff, hf] at hvis; simp at hvis) hkey
    refine State.Evaluates.told hk ⟨fun v hv => (gone v hv).elim, fun v hv => (gone v hv).elim,
      fun j _ hl hj => absurd hj (ha j (by rw [hl]; simp)), fun _ => rfl⟩ ?_ ?_
    · rw [State.captureMiss_dir]; rfl
    · rw [State.captureMiss_comp]; rfl

end Sys2Proof.Machine
end

section
/-! SUPPORT. Which rows keep the pages: they go on agreeing, the sweep goes on as it was, no entry becomes HELD, and no frame
changes. Said once for each shared operation, then for each rule. -/

namespace Sys2Proof.Machine

/-- `t` has come from `s` by changes to the pages that keep them in agreement, set no HELD flag and write no frame. -/
structure State.PagesKept (s t : State) : Prop where
  agree : s.PagesAgree → t.PagesAgree
  sweep : t.sweep = s.sweep
  held : ∀ i : Fin 48, t.dir.entries[i].held = true → s.dir.entries[i].held = true
  frames : t.dir.frames = s.dir.frames

theorem State.PagesKept.refl (s : State) : s.PagesKept s := ⟨id, rfl, fun _ => id, rfl⟩

theorem State.PagesKept.trans {s t u : State} (h : s.PagesKept t) (k : t.PagesKept u) : s.PagesKept u :=
  ⟨k.agree ∘ h.agree, k.sweep.trans h.sweep, fun i => h.held i ∘ k.held i, k.frames.trans h.frames⟩

/-- A change that leaves directory, slots, sweep and shown key alone. -/
theorem State.PagesKept.of_blocks {s t : State} (dir : t.dir = s.dir) (load : t.load.slots = s.load.slots)
    (sweep : t.sweep = s.sweep) (shownKey : t.nav.shownKey = s.nav.shownKey) : s.PagesKept t :=
  ⟨fun h => h.congr (by rw [dir]) (by rw [dir]) load sweep shownKey, sweep, fun i => by rw [dir]; exact id, by rw [dir]⟩

theorem PinPath.pagesKept {s t : State} (h : PinPath s t) : s.PagesKept t :=
  .of_blocks h.dir (by rw [h.load]) h.sweep (by rw [h.nav])

theorem State.PagesKept.setNav (s : State) (n : Navigation) (shownKey : n.shownKey = s.nav.shownKey) :
    s.PagesKept (s.setNav n) := .of_blocks rfl rfl rfl shownKey

theorem State.PagesKept.post (s : State) (n : Notice) : s.PagesKept (s.post n) :=
  .of_blocks (by simp) (by simp) (by simp) (by simp)

/-- Entry `i` takes other contents: its state, key, kind, slot and pin stay. -/
theorem State.PagesKept.contents {s : State} {i : Fin 48} {e : Entry} (shaped : s.dir.entries[i].Shaped → e.Shaped)
    (state : e.state = s.dir.entries[i].state) (key : e.key = s.dir.entries[i].key)
    (kind : e.kind = s.dir.entries[i].kind) (slot : e.slot = s.dir.entries[i].slot)
    (pinned : e.pinned = s.dir.entries[i].pinned) (held : e.held = true → s.dir.entries[i].held = true) :
    s.PagesKept (s.setDir (s.dir.setEntry i e)) := by
  have entry : ∀ j : Fin 48, (s.setDir (s.dir.setEntry i e)).dir.entries[j] = if j = i then e else s.dir.entries[j] :=
    fun j => Directory.setEntry_entry _ _ _ _
  have same : ∀ {α : Type} (field : Entry → α), field e = field s.dir.entries[i] → ∀ j : Fin 48,
      field (s.setDir (s.dir.setEntry i e)).dir.entries[j] = field s.dir.entries[j] := fun field h j => by
    rw [entry]
    split
    · rename_i hj; rw [hj]; exact h
    · rfl
  have keeps : ∀ j : Fin 48, (s.setDir (s.dir.setEntry i e)).dir.entries[j].held = true →
      s.dir.entries[j].held = true := fun j => by
    rw [entry]
    split
    · rename_i hj; rw [hj]; exact held
    · exact id
  refine ⟨fun h => h.same (fun j => ?_) (same _ state) (same _ key) (same _ kind) (same _ slot) (same _ pinned) rfl
    (fun _ => rfl) rfl fun j hj => ?_, rfl, keeps, rfl⟩
  · rw [entry]
    split
    · exact shaped (h.1 i)
    · exact h.1 j
  · have := h.2.2.2.2.2 j (keeps j hj)
    exact ⟨(Entry.visible_of_state (same _ state j)).trans this.1, this.2⟩

/-- R1: the contents of an entry that is visible may take any revision and any marks. -/
theorem Entry.shaped_of_visible {e e' : Entry} (h : e.Shaped) (visible : e.visible = true) (state : e'.state = e.state)
    (key : e'.key = e.key) (slot : e'.slot = e.slot) : e'.Shaped := by
  rw [Entry.visible_iff] at visible
  obtain ⟨-, hkey, -, hslot⟩ := h
  refine ⟨fun hf => ?_, fun _ => ?_, fun hl => ?_, fun _ => ?_⟩
  · rw [state] at hf; rw [hf] at visible; simp at visible
  · rw [key]; exact hkey (by rcases visible with h | h <;> rw [h] <;> simp)
  · rw [state] at hl; rw [hl] at visible; simp at visible
  · rw [slot]; exact hslot (by rcases visible with h | h <;> rw [h] <;> simp)

theorem State.PagesKept.setMarks {s : State} {i : Fin 48} (visible : s.dir.entries[i].visible = true) (marks : List Mark) :
    s.PagesKept (s.setDir (s.dir.setMarks i marks)) :=
  .contents (fun h => Entry.shaped_of_visible h visible rfl rfl rfl) rfl rfl rfl rfl rfl id

/-- R8: an entry is released. -/
theorem State.PagesKept.release {s : State} {i : Fin 48} (visible : s.dir.entries[i].visible = true) :
    s.PagesKept (s.setDir (s.dir.release i)) :=
  .contents (fun h => Entry.shaped_of_visible h visible rfl rfl rfl) rfl rfl rfl rfl rfl (fun h => by cases h)

/-! ### What navigation does -/

theorem State.PagesKept.tellLines (s : State) (i : Fin 48) (lines : List (Fin 32)) : s.PagesKept (s.tellLines i lines) :=
  (PinPath.tellLines s i lines).pagesKept

/-- R7: a visible entry is shown, or is SHOWN already, and navigation names its key. -/
theorem State.PagesKept.shows {s t : State} {v : Fin 48}
    (dir : t.dir = if s.dir.entries[v].state = .shown then s.dir else s.dir.showEntry v)
    (slots : t.load.slots = s.load.slots) (sweep : t.sweep = s.sweep)
    (visible : s.dir.entries[v].visible = true) (shownKey : t.nav.shownKey = s.dir.entries[v].key) : s.PagesKept t := by
  refine ⟨fun h => h.shows dir slots sweep visible shownKey, sweep, fun j => ?_, ?_⟩
  · rw [dir]
    split
    · exact id
    · rename_i hs
      rw [Directory.showEntry_entry hs]
      split_ifs
      · rename_i hj; rw [hj]; exact id
      · exact id
      · exact id
  · rw [dir]
    split
    · rfl
    · simp

/-- R67: an evaluation shows an entry or waits. -/
theorem State.PagesKept.evaluate (s : State) (cause : ShownCause) : s.PagesKept (s.evaluate cause) := by
  cases hk : s.nav.wantedKey with
  | none => rw [State.evaluate.eq_def, hk]; exact .refl s
  | some k =>
    obtain ⟨u, hu, path, -⟩ := s.evaluate_evaluates cause k hk
    refine State.PagesKept.trans ?_ path.pagesKept
    cases h : s.dir.lookup k with
    | visible v =>
      obtain ⟨hv, hh⟩ := Directory.lookup_visible.mp h
      obtain ⟨visible, key⟩ := Directory.visibleEntry_some hv
      rw [hu.visible v hv hh]
      refine .trans ?_ (.post _ _)
      exact .shows rfl rfl rfl visible key.symm
    | held v =>
      obtain ⟨hv, hh⟩ := Directory.lookup_held.mp h
      rw [hu.held v hv hh]
      exact .of_blocks rfl rfl rfl rfl
    | loading slot =>
      obtain ⟨hv, i, hi, -⟩ := Directory.lookup_loading.mp h
      obtain ⟨hl, key⟩ := Directory.loadingEntry_some hi
      rw [hu.loading i hv hl key]
      exact .of_blocks rfl rfl rfl rfl
    | absent =>
      rw [hu.absent (Directory.lookup_absent.mp h)]
      split
      · exact .of_blocks rfl rfl rfl rfl
      · refine .trans ?_ (.post _ _)
        exact .setNav _ _ rfl

/-- An evaluation that a test may call for. -/
theorem State.PagesKept.mayEvaluate {s t : State} (h : s.PagesKept t) (b : Bool) (cause : ShownCause) :
    s.PagesKept (if b then t.evaluate cause else t) := by
  split
  · exact h.trans (.evaluate _ _)
  · exact h

theorem State.PagesKept.wantPage (s : State) (page : BitVec 16) (cause : ShownCause) :
    s.PagesKept (s.wantPage page cause) := by
  refine .trans ?_ (.evaluate _ _)
  exact .setNav _ _ rfl

theorem State.PagesKept.loadEnded (s : State) (k : Key) : s.PagesKept (s.loadEnded k) :=
  (State.PagesKept.refl s).mayEvaluate _ _

theorem State.PagesKept.keyReleased (s : State) (k : Key) : s.PagesKept (s.keyReleased k) := .loadEnded s k

theorem State.PagesKept.tellReleased (keys : List Key) (s : State) : s.PagesKept (s.tellReleased keys) := by
  induction keys generalizing s with
  | nil => exact .refl s
  | cons k rest ih => exact .trans (.keyReleased s k) (ih _)

theorem State.PagesKept.keyCommitted (s : State) (k : Key) : s.PagesKept (s.keyCommitted k) := by
  have unlock : s.PagesKept (if s.nav.lockedOn k then s.setNav { s.nav with missLocked := false } else s) := by
    split
    · exact .setNav _ _ rfl
    · exact .refl s
  exact unlock.mayEvaluate _ _

/-- R77: navigation has taken over the new key of the SHOWN entry, and then does what it does of a key. -/
theorem State.PagesKept.keyMoved (s : State) (before after : Key) (shown : Bool) :
    (if shown then s.setNav { s.nav with shownKey := some after, document := after.doc } else s).PagesKept
      (s.keyMoved before after shown) := by
  unfold State.keyMoved
  generalize (if shown then s.setNav { s.nav with shownKey := some after, document := after.doc } else s) = u
  have unlock : u.PagesKept (if u.nav.lockedOn after then u.setNav { u.nav with missLocked := false } else u) := by
    split
    · exact .setNav _ _ rfl
    · exact .refl u
  exact unlock.mayEvaluate _ _

/-! ### Presses of the patron keys (R56, R64, R69, R70) -/

theorem State.PagesKept.pageStep (s : State) (next : BitVec 16 → BitVec 16) : s.PagesKept (s.pageStep next) := by
  unfold State.pageStep
  split
  · exact .refl s
  · split_ifs
    · exact .refl s
    · exact .refl s
    · exact .wantPage _ _ _

theorem State.PagesKept.seek (s : State) : s.PagesKept s.seek := by
  unfold State.seek
  split
  · exact .refl s
  · split_ifs
    · exact .refl s
    · split
      · exact .wantPage _ _ _
      · exact .refl s

theorem State.PagesKept.markPress (s : State) : s.PagesKept s.markPress := by
  unfold State.markPress
  split
  · exact .refl s
  · rename_i i hi
    have visible : s.dir.entries[i].visible = true := by
      rw [Entry.visible_iff]; exact .inr (Directory.shownEntry_some hi)
    simp only
    split_ifs
    · exact .refl s
    · split
      · exact .refl s
      · exact .trans (.setMarks visible _) (.tellLines _ _ _)

theorem State.PagesKept.pressKey (s : State) (k : PatronKey) : s.PagesKept (s.pressKey k) := by
  cases k with
  | prev => exact .trans (.post _ _) (.pageStep _ _)
  | next => exact .trans (.post _ _) (.pageStep _ _)
  | mark => exact .trans (.post _ _) (.markPress _)
  | seek => exact .trans (.post _ _) (.seek _)
  | call => exact .post _ _

theorem State.PagesKept.pressKeys (keys : List PatronKey) (s : State) : s.PagesKept (s.pressKeys keys) := by
  induction keys generalizing s with
  | nil => exact .refl s
  | cons k rest ih => exact .trans (.pressKey s k) (ih _)

theorem State.PagesKept.sample (s : State) (down : Vector Bool 5) : s.PagesKept (s.sample down) := by
  refine .trans ?_ (.pressKeys _ _)
  exact .setNav _ _ rfl

/-! ### Loads that end (R39, R43, R44, R46) -/

/-- R22: a slot's record names its entry, and no other slot's does. -/
theorem State.SlotsMatch.entry_iff {s : State} {i : Fin 2} {r : LoadSlot} (h : s.SlotsMatch)
    (hr : s.load.slots[i] = some r) (j : Fin 2) : s.load.slots[j].map LoadSlot.entry = some r.entry ↔ j = i := by
  constructor
  · intro hj
    obtain ⟨q, hq, he⟩ : ∃ q, s.load.slots[j] = some q ∧ q.entry = r.entry := by simpa using hj
    have own := (h.1 i r hr).2.1
    have other := (h.1 j q hq).2.1
    simp only [he, own, Option.some.injEq] at other
    exact other.symm
  · rintro rfl
    rw [hr]; rfl

theorem State.PagesKept.dropLoad {s : State} {i : Fin 2} {r : LoadSlot} (hr : s.load.slots[i] = some r) :
    s.PagesKept (s.dropLoad i r) := by
  have entry : ∀ j : Fin 48, (s.dropLoad i r).dir.entries[j] = if j = r.entry then Entry.free else s.dir.entries[j] :=
    fun j => Directory.freeEntry_entry _ _ _
  refine ⟨fun h => h.free entry rfl (fun k => ?_) rfl rfl ?_, rfl, fun j => ?_, rfl⟩
  · simp only [h.2.1.entry_iff hr]
    exact Decoder.setSlot_slot _ _ _ _
  · rw [(h.2.1.1 i r hr).1]; simp
  · rw [entry]; split
    · intro hf; cases hf
    · exact id

theorem State.PagesKept.fatalStream {s : State} {i : Fin 2} {r : LoadSlot} (hr : s.load.slots[i] = some r)
    (e : StreamError) (offset : Nat) : s.PagesKept (s.fatalStream i r e offset) :=
  .trans (.dropLoad hr) (.trans (.post _ _) (.loadEnded _ _))

end Sys2Proof.Machine
end

section
/-! SUPPORT. What each command's rule does to the pages: it leaves the state as it is, or it answers OK or ACCEPTED and keeps
them. One lemma per rule; a rule is not unfolded again after it. -/

namespace Sys2Proof.Machine

/-- A rule's answer: the state is left as it is, or the command is taken and `P` holds of the state it leaves. -/
def Reply.Answers (s : State) (P : State → Prop) (a : State × Reply) : Prop :=
  a.1 = s ∨ ((a.2.status = .ok ∨ a.2.status = .accepted) ∧ P a.1)

theorem Reply.Answers.refused {s : State} {P : State → Prop} (r : Reply) : Reply.Answers s P (s, r) := .inl rfl

theorem Reply.Answers.ok {s t : State} {P : State → Prop} {p : List Byte} (h : P t) : Reply.Answers s P (t, ⟨.ok, p⟩) :=
  .inr ⟨.inl rfl, h⟩

theorem Reply.Answers.kept {s : State} {a : State × Reply} (h : Reply.Answers s s.PagesKept a) : s.PagesKept a.1 := by
  rcases h with h | ⟨-, h⟩
  · rw [h]; exact .refl s
  · exact h

/-! ### The pin path's own rows -/

theorem State.PagesKept.setCal (s : State) (x : Calendar) : s.PagesKept (s.setCal x) := .of_blocks rfl rfl rfl rfl
theorem State.PagesKept.setDrive (s : State) (x : Drive) : s.PagesKept (s.setDrive x) := .of_blocks rfl rfl rfl rfl
theorem State.PagesKept.setPins (s : State) (x : PinField) : s.PagesKept (s.setPins x) := .of_blocks rfl rfl rfl rfl
theorem State.PagesKept.setComp (s : State) (x : Compositor) : s.PagesKept (s.setComp x) := .of_blocks rfl rfl rfl rfl
theorem State.PagesKept.setTouch (s : State) (x : Touch) : s.PagesKept (s.setTouch x) := .of_blocks rfl rfl rfl rfl
theorem State.PagesKept.setLink (s : State) (x : Link) : s.PagesKept (s.setLink x) := .of_blocks rfl rfl rfl rfl
theorem State.PagesKept.recompose (s : State) (lines : List (Fin 32)) : s.PagesKept (s.recompose lines) :=
  (PinPath.recompose s lines).pagesKept
theorem State.PagesKept.reform (s : State) (rows : Fin 128 → Bool) : s.PagesKept (s.reform rows) :=
  (PinPath.reform s rows).pagesKept
theorem State.PagesKept.wake (s : State) : s.PagesKept s.wake := (PinPath.wake s).pagesKept
theorem State.PagesKept.requestSurvey (s : State) : s.PagesKept s.requestSurvey := (PinPath.requestSurvey s).pagesKept
theorem State.PagesKept.postDrive (s : State) : s.PagesKept s.postDrive := .post _ _

theorem State.PagesKept.driveOn (s : State) : s.PagesKept s.driveOn :=
  .trans (.setCal s _) (PinPath.runCalendar _ (s.setCal { s.cal with sched := .driving, quiet := [] }) rfl).pagesKept

theorem State.PagesKept.takeUp (s : State) (announce : State → State) (h : ∀ u : State, u.PagesKept (announce u)) :
    s.PagesKept (s.takeUp announce) := by
  unfold State.takeUp
  split
  · exact .trans (.setCal s _) (.trans (h _) (.requestSurvey _))
  · exact .trans (.setCal s _) (.trans (h _) (.driveOn _))

theorem State.PagesKept.setStatus (s : State) (on : Bool) (time : Nat) (text : Vector Byte 30) :
    s.PagesKept (s.setStatus on time text) := by
  unfold State.setStatus State.blinkChanged
  simp only
  split_ifs
  · exact .trans (.setComp s _) (.recompose _ _)
  · exact .trans (.setComp s _) (.trans (.recompose _ _) (.recompose _ _))
  · exact .setComp s _
  · exact .trans (.setComp s _) (.recompose _ _)

theorem State.PagesKept.setGlyphs (s : State) (g : Glyphs) : s.PagesKept (s.setGlyphs g) := by
  unfold State.setGlyphs
  simp only
  split
  · exact .trans (.setComp s _) (.recompose _ _)
  · exact .setComp s _

theorem State.PagesKept.pauseDrive (s : State) : s.PagesKept s.pauseDrive := by
  unfold State.pauseDrive
  simp only
  split
  · exact .trans (.setCal s _) (.setCal _ _)
  · split
    · exact .setCal s _
    · exact .trans (.setCal s _) (.trans (.setDrive _ _) (.setCal _ _))
  · split
    · exact .setCal s _
    · exact .trans (.setCal s _) (.trans (.setDrive _ _) (.setCal _ _))
  · exact .setCal s _
  · exact .setCal s _

theorem State.PagesKept.resumeDrive (s : State) : s.PagesKept s.resumeDrive := by
  unfold State.resumeDrive
  simp only
  split
  · exact .trans (.setCal s _) (.takeUp _ _ .refl)
  · exact .trans (.setCal s _) (.wake _)
  all_goals exact .setCal s _

theorem State.PagesKept.surveyAll (s : State) : s.PagesKept s.surveyAll := by
  unfold State.surveyAll
  simp only
  split
  · have re : s.PagesKept (((s.setPins s.pins.allUnknown).setCal
        { (s.setPins s.pins.allUnknown).cal with sched := .surveying }).reform fun _ => true) :=
      .trans (.setPins s _) (.trans (.setCal _ _) (.reform _ _))
    split
    · exact re
    · exact re.trans (.requestSurvey _)
  · exact .trans (.setPins s _) (.trans (.setCal _ _) (.requestSurvey _))
  all_goals exact .setPins s _

theorem State.PagesKept.clearFaults (s : State) (sel : FaultSelector) : s.PagesKept (s.clearFaults sel) := by
  unfold State.clearFaults
  simp only
  split
  · exact .refl s
  · exact .trans (.setPins s _) (.trans (.reform _ _) (.wake _))

theorem State.PagesKept.declineMiss (s : State) : s.PagesKept s.declineMiss := by
  unfold State.declineMiss
  simp only
  split_ifs
  · refine .trans ?_ (PinPath.tellCondition _ _).pagesKept
    exact .of_blocks rfl rfl rfl rfl
  · exact .setNav s _ rfl
  · exact .refl s

theorem State.PagesKept.startIfCharged (s : State) : s.PagesKept s.startIfCharged := (PinPath.startIfCharged s).pagesKept

theorem State.PagesKept.supplyLost (s : State) : s.PagesKept s.supplyLost := by
  unfold State.supplyLost
  have discard : s.PagesKept s.discardStroke := by
    unfold State.discardStroke
    split
    · exact .setPins s _
    · exact .refl s
  exact discard.trans (.trans (.setDrive _ _) (.trans (.setCal _ _) (.postDrive _)))

theorem State.PagesKept.supplyBack (s : State) : s.PagesKept s.supplyBack := by
  unfold State.supplyBack
  simp only
  split
  · exact .trans (.setDrive s _) (.trans (.setCal _ _) (.postDrive _))
  · exact .trans (.setDrive s _) (.takeUp _ _ .postDrive)

theorem State.PagesKept.takeResult (s : State) (p : Plan) (sensed : PinRow) : s.PagesKept (s.takeResult p sensed) := by
  unfold State.takeResult
  split
  · exact .setPins s _
  · simp only
    split
    · exact .setPins s _
    · exact .trans (.setPins s _) (.post _ _)

theorem State.PagesKept.completeDriving {s : State} (h : s.cal.sched.atWork = true) : s.PagesKept s.completeDriving := by
  unfold State.completeDriving
  have counted : PinPath s (match s.cal.visit with | some v => s.countStroke v | none => (s, true)).1 := by
    split
    · rename_i v _
      unfold State.countStroke
      split
      · exact PinPath.setCal rfl rfl (.inl rfl)
      · exact PinPath.rowDone s v h
    · exact PinPath.refl s
  simp only
  split
  · exact counted.pagesKept.trans (.setCal _ _)
  · exact (PinPath.goOn h counted).pagesKept

theorem State.PagesKept.completeSurveying (s : State) : s.PagesKept s.completeSurveying := by
  unfold State.completeSurveying
  split
  · split
    · exact .setCal s _
    · exact .requestSurvey s
  · split
    · exact .trans (.setCal s _) (.postDrive _)
    · exact .trans (.setCal s _) (.trans (.postDrive _) (.driveOn _))

theorem State.PagesKept.strokeDone (s : State) : s.PagesKept s.strokeDone := by
  unfold State.strokeDone
  split
  · rename_i h; exact .completeDriving (by rw [h]; rfl)
  · exact .completeSurveying s
  · exact .refl s

theorem State.PagesKept.zoneTakes (s : State) (z : Fin 16) (r : Zone × Bool) : s.PagesKept (s.zoneTakes z r) := by
  have changed : ∀ (u : State) (b : Bool), u.PagesKept (u.zoneChanged z b) := fun u b => by
    obtain ⟨t, path, e⟩ := u.zoneChanged_eq z b
    rw [e]
    exact path.pagesKept.trans (.post _ _)
  unfold State.zoneTakes
  simp only
  split_ifs
  · exact .trans (.setTouch s _) (.trans (.setTouch _ _) (changed _ _))
  · exact .trans (.setTouch s _) (changed _ _)
  · exact .setTouch s _

/-! ### The rules of the settings and the reports -/

theorem setStatusRule_answers (p : List Byte) (s : State) : Reply.Answers s s.PagesKept (setStatusRule p s) := by
  unfold setStatusRule
  split
  · split
    · exact .refused _
    · split
      · exact .ok (.setStatus s _ _ _)
      · exact .refused _
  · exact .refused _

theorem setGlyphsRule_answers (p : List Byte) (s : State) : Reply.Answers s s.PagesKept (setGlyphsRule p s) :=
  .ok (.setGlyphs s _)

theorem setDriveRule_answers (p : List Byte) (s : State) : Reply.Answers s s.PagesKept (setDriveRule p s) := by
  unfold setDriveRule
  split
  · split
    · exact .ok (.trans (.setDrive s _) (.reform _ _))
    · exact .refused _
  · exact .refused _

theorem pauseDriveRule_answers (p : List Byte) (s : State) : Reply.Answers s s.PagesKept (pauseDriveRule p s) :=
  .ok (.pauseDrive s)

theorem resumeDriveRule_answers (p : List Byte) (s : State) : Reply.Answers s s.PagesKept (resumeDriveRule p s) :=
  .ok (.resumeDrive s)

theorem surveyRule_answers (p : List Byte) (s : State) : Reply.Answers s s.PagesKept (surveyRule p s) :=
  .ok (.surveyAll s)

theorem setCalendarRule_answers (p : List Byte) (s : State) : Reply.Answers s s.PagesKept (setCalendarRule p s) := by
  unfold setCalendarRule
  split
  · exact .refused _
  · simp only
    split
    · exact .ok (.setCal s _)
    · exact .refused _

theorem setTouchRule_answers (p : List Byte) (s : State) : Reply.Answers s s.PagesKept (setTouchRule p s) := by
  unfold setTouchRule
  split
  · split
    · exact .ok (.setTouch s _)
    · exact .refused _
  · exact .refused _

theorem setNoticeMaskRule_answers (p : List Byte) (s : State) : Reply.Answers s s.PagesKept (setNoticeMaskRule p s) := by
  unfold setNoticeMaskRule
  split
  · split
    · exact .ok (.setLink s _)
    · exact .refused _
  · exact .refused _

theorem setControlCodesRule_answers (p : List Byte) (s : State) :
    Reply.Answers s s.PagesKept (setControlCodesRule p s) := by
  unfold setControlCodesRule
  split
  · exact .refused _
  · simp only
    split_ifs
    · exact .refused _
    · exact .refused _
    · exact .ok (.of_blocks rfl rfl rfl rfl)

theorem clearFaultsRule_answers (p : List Byte) (s : State) : Reply.Answers s s.PagesKept (clearFaultsRule p s) := by
  unfold clearFaultsRule
  split
  · split
    · exact .refused _
    · exact .ok (.clearFaults s _)
  · exact .refused _

theorem declineMissRule_answers (p : List Byte) (s : State) : Reply.Answers s s.PagesKept (declineMissRule p s) :=
  .ok (.declineMiss s)

theorem setNavigationRule_answers (p : List Byte) (s : State) : Reply.Answers s s.PagesKept (setNavigationRule p s) := by
  unfold setNavigationRule
  split
  · split
    · exact .refused _
    · exact .ok (.setNav s _ rfl)
  · exact .refused _

/-- R15: QUERY ENTRY changes nothing. -/
theorem queryEntryRule_state (p : List Byte) (s : State) : (queryEntryRule p s).1 = s := by
  unfold queryEntryRule
  split
  · split
    · rfl
    · split <;> rfl
  · rfl

/-- R17: LIST ENTRIES changes nothing. -/
theorem listEntriesRule_state (p : List Byte) (s : State) : (listEntriesRule p s).1 = s := by
  unfold listEntriesRule
  split
  · split <;> rfl
  · rfl

/-- R128: READ ROW changes nothing. -/
theorem readRowRule_state (p : List Byte) (s : State) : (readRowRule p s).1 = s := by
  unfold readRowRule
  split
  · split <;> rfl
  · rfl

/-! ### The rules of the commands on entries -/

/-- R13: the entry that the checks let through. -/
theorem State.checkEntry_ok {s : State} {k : Key} {kindSuits : Kind → Bool} {stateSuits : EntryState → Bool}
    {cond : Condition} {i : Fin 48} (h : s.checkEntry k kindSuits stateSuits cond = .ok i) :
    s.dir.visibleEntry k = some i ∧ kindSuits s.dir.entries[i].kind = true ∧ s.dir.entries[i].held = false ∧
      stateSuits s.dir.entries[i].state = true ∧ cond.holds s.dir.entries[i].revision = true := by
  unfold State.checkEntry at h
  split at h
  · cases h
  · rename_i v hv
    simp only at h
    split_ifs at h with h1 h2 h3 h4
    obtain rfl : v = i := by simpa using h
    simp only [Bool.not_eq_true', Bool.not_eq_false, Bool.not_eq_true] at h1 h2 h3 h4
    exact ⟨hv, h1, h2, h3, h4⟩

theorem State.checkEntry_visible {s : State} {k : Key} {kindSuits : Kind → Bool} {stateSuits : EntryState → Bool}
    {cond : Condition} {i : Fin 48} (h : s.checkEntry k kindSuits stateSuits cond = .ok i) :
    s.dir.entries[i].visible = true := (Directory.visibleEntry_some (State.checkEntry_ok h).1).1

/-- R19: a READY entry becomes FREE. -/
theorem State.PagesKept.retire {s : State} {i : Fin 48} (ready : s.dir.entries[i].state = .ready) :
    s.PagesKept (s.setDir (s.dir.freeEntry i)) := by
  have entry : ∀ j : Fin 48, (s.setDir (s.dir.freeEntry i)).dir.entries[j] =
      if j = i then Entry.free else s.dir.entries[j] := fun j => Directory.freeEntry_entry _ _ _
  refine ⟨fun h => h.free entry rfl (fun k => ?_) rfl rfl (by rw [ready]; simp), rfl, fun j => ?_, rfl⟩
  · rw [if_neg]
    · rfl
    · intro hk
      obtain ⟨r, hr, rfl⟩ : ∃ r, s.load.slots[k] = some r ∧ r.entry = i := by simpa using hk
      have := (h.2.1.1 k r hr).1
      rw [ready] at this
      cases this
  · rw [entry]; split
    · intro hf; cases hf
    · exact id

theorem retireRule_answers (p : List Byte) (s : State) : Reply.Answers s s.PagesKept (retireRule p s) := by
  unfold retireRule
  split
  · split
    · split
      · exact .refused _
      · rename_i h
        exact .ok (.retire (by simpa using (State.checkEntry_ok h).2.2.2.1))
    · exact .refused _
  · exact .refused _

/-- R10, R20: after the assignment the queue holds entry `i` if it is READY and unpinned, and the other entries as
before, each once. -/
theorem Directory.setPinned_mem (d : Directory) (i j : Fin 48) (p : Bool) (h : i ∈ d.queue → d.entries[i].state = .ready) :
    j ∈ (d.setPinned i p).queue ↔
      if j = i then d.entries[i].state = .ready ∧ p = false else j ∈ d.queue := by
  rw [Directory.setPinned_queue]
  cases p
  · simp only [Bool.false_eq_true, if_false, and_true]
    split_ifs with hc hj hj
    · rw [hj]; simp [-Fin.getElem_fin, hc.1]
    · simp [hj]
    · rw [hj]
      exact ⟨h, fun hr => by_contra fun hn => hc ⟨hr, hn⟩⟩
    · rfl
  · by_cases hj : j = i <;> simp [hj]

theorem Directory.setPinned_nodup (d : Directory) (i : Fin 48) (p : Bool) (h : d.queue.Nodup) :
    (d.setPinned i p).queue.Nodup := by
  unfold Directory.setPinned
  cases p
  · exact Directory.joinQueue_nodup _ _ h
  · exact h.filter _

theorem Directory.assign_entry (d : Directory) (i j : Fin 48) (pinned : Bool) (group : BitVec 4) :
    (d.assign i pinned group).entries[j] =
      if j = i then { d.entries[i] with pinned := pinned, group := group } else d.entries[j] := by
  unfold Directory.assign
  rw [Directory.setPinned_entry, Directory.setEntry_entry, Directory.setEntry_entry, if_pos rfl]
  by_cases h : j = i <;> simp only [h, if_true, if_false]

/-- R20: pin and group of a visible entry are set, and the queue follows. -/
theorem State.PagesKept.assign {s : State} {i : Fin 48} (visible : s.dir.entries[i].visible = true) (pinned : Bool)
    (group : BitVec 4) : s.PagesKept (s.setDir (s.dir.assign i pinned group)) := by
  have entry := fun j => Directory.assign_entry s.dir i j pinned group
  have own : (s.dir.setEntry i { s.dir.entries[i] with group := group }).entries[i].state = s.dir.entries[i].state := by
    rw [Directory.setEntry_entry, if_pos rfl]
  refine ⟨fun h => ?_, rfl, fun j => ?_, Directory.setPinned_frames _ _ _⟩
  · have queue := h.2.2.2.1
    refine h.edit entry rfl rfl visible rfl rfl (.inl rfl) id (Directory.setPinned_nodup _ _ _ queue.1) (fun j => ?_) ?_
    · refine (Directory.setPinned_mem _ i j pinned fun hq => ?_).trans ?_
      · rw [own]; exact ((queue.2 i).mp hq).1
      · rw [own]; rfl
    · simp only
      split
      · rename_i hs; exact h.2.2.2.2.1.2.1 i hs
      · rfl
  · change (s.dir.assign i pinned group).entries[j].held = true → _
    rw [entry]; split
    · rename_i hj; rw [hj]; exact id
    · exact id

theorem setEntryRule_answers (p : List Byte) (s : State) : Reply.Answers s s.PagesKept (setEntryRule p s) := by
  unfold setEntryRule
  split
  · split
    · split
      · exact .refused _
      · rename_i h
        exact .ok (.assign (State.checkEntry_visible h) _ _)
    · exact .refused _
  · exact .refused _

theorem addMarkRule_answers (p : List Byte) (s : State) : Reply.Answers s s.PagesKept (addMarkRule p s) := by
  unfold addMarkRule
  split
  · split
    · split
      · exact .refused _
      · rename_i h
        simp only
        split_ifs
        · exact .ok (.refl s)
        · exact .ok (.trans (.setMarks (State.checkEntry_visible h) _) (.tellLines _ _ _))
        · exact .refused _
    · exact .refused _
  · exact .refused _

theorem dropMarksRule_answers (p : List Byte) (s : State) : Reply.Answers s s.PagesKept (dropMarksRule p s) := by
  unfold dropMarksRule
  split
  · split
    · split
      · exact .refused _
      · rename_i h
        simp only
        split_ifs
        · exact .ok (.refl s)
        · exact .ok (.trans (.setMarks (State.checkEntry_visible h) _) (.tellLines _ _ _))
    · exact .refused _
  · exact .refused _

/-! ### SHOW, COMMIT and CANCEL LOAD -/

theorem showRule_answers (p : List Byte) (s : State) : Reply.Answers s s.PagesKept (showRule p s) := by
  unfold showRule
  split
  · split
    · exact .refused _
    · split
      · exact .refused _
      · refine .ok (.trans ?_ (.wantPage _ _ _))
        exact .setNav _ _ rfl
  · exact .refused _

theorem cancelLoadRule_answers (p : List Byte) (s : State) : Reply.Answers s s.PagesKept (cancelLoadRule p s) := by
  unfold cancelLoadRule
  split
  · split
    · exact .refused _
    · split
      · exact .refused _
      · rename_i h
        exact .ok (.trans (.dropLoad h) (.loadEnded _ _))
  · exact .refused _

theorem Directory.placeNew_entry (d : Directory) (i j : Fin 48) (marks : List Mark) :
    (d.placeNew i marks).entries[j] =
      if j = i then { d.entries[i] with state := .ready, revision := 1, slot := none, marks := marks }
      else d.entries[j] := by
  unfold Directory.placeNew
  rw [Directory.joinQueue_entries, Directory.setEntry_entry]

@[simp] theorem Directory.placeNew_frames (d : Directory) (i : Fin 48) (marks : List Mark) :
    (d.placeNew i marks).frames = d.frames := by simp [Directory.placeNew]

theorem Directory.replaceEntry_entry (d : Directory) (i v j : Fin 48) (marks : List Mark) :
    (d.replaceEntry i v marks).entries[j] =
      if j = v then Entry.free else if j = i then { d.entries[i] with
        state := if d.entries[v].state = .shown then .shown else .ready
        revision := d.entries[v].revision + 1
        slot := none
        marks := marks } else d.entries[j] := by
  unfold Directory.replaceEntry
  simp only [Directory.freeEntry_entry, Directory.joinQueue_entries, Directory.setEntry_entry]

@[simp] theorem Directory.replaceEntry_frames (d : Directory) (i v : Fin 48) (marks : List Mark) :
    (d.replaceEntry i v marks).frames = d.frames := by simp [Directory.replaceEntry]

/-- R43: a page is placed as a new key. -/
theorem State.PagesKept.place {s : State} {i : Fin 2} {r : LoadSlot} (hr : s.load.slots[i] = some r)
    (newKey : s.dir.visibleEntry r.key = none) (marks : List Mark) :
    s.PagesKept ((s.setLoad (s.load.setSlot i none)).setDir (s.dir.placeNew r.entry marks)) := by
  have entry := fun j => Directory.placeNew_entry s.dir r.entry j marks
  refine ⟨fun h => h.placed entry (fun j => Decoder.setSlot_slot _ _ _ _) rfl rfl hr (Directory.visibleEntry_none.mp newKey)
    ⟨rfl, rfl⟩ rfl rfl (Directory.joinQueue_nodup _ _ h.2.2.2.1.1) fun j => ?_, rfl, fun j => ?_, by simp⟩
  · refine (Directory.mem_joinQueue _ _ _).trans ?_
    rw [Directory.setEntry_entry, if_pos rfl, Directory.setEntry_queue]
    simp
  · change (s.dir.placeNew r.entry marks).entries[j].held = true → _
    rw [entry]; split
    · rename_i hj; rw [hj]; exact id
    · exact id

/-- R44: a page takes the place of the visible entry of its key. -/
theorem State.PagesKept.replace {s : State} {i : Fin 2} {r : LoadSlot} {v : Fin 48} (hr : s.load.slots[i] = some r)
    (oldKey : s.dir.visibleEntry r.key = some v) (marks : List Mark) :
    s.PagesKept ((s.setLoad (s.load.setSlot i none)).setDir (s.dir.replaceEntry r.entry v marks)) := by
  have entry := fun j => Directory.replaceEntry_entry s.dir r.entry v j marks
  obtain ⟨visible, key⟩ := Directory.visibleEntry_some oldKey
  refine ⟨fun h => h.replaced entry (fun j => Decoder.setSlot_slot _ _ _ _) rfl rfl hr visible key ?_ rfl rfl rfl ?_
    fun j => ?_, rfl, fun j => ?_, by simp⟩
  · simp only
    rw [Entry.visible_iff] at visible
    rcases visible with hs | hs <;> rw [hs] <;> rfl
  · exact List.Nodup.filter _ (Directory.joinQueue_nodup _ _ h.2.2.2.1.1)
  · refine (List.mem_filter.trans (and_congr (Directory.mem_joinQueue _ _ _) Iff.rfl)).trans ?_
    rw [Directory.setEntry_entry, if_pos rfl, Directory.setEntry_queue, and_comm]
    simp
  · change (s.dir.replaceEntry r.entry v marks).entries[j].held = true → _
    rw [entry]
    by_cases hv : j = v
    · rw [if_pos hv]; intro hf; cases hf
    · rw [if_neg hv]
      by_cases hj : j = r.entry
      · rw [if_pos hj, hj]; exact id
      · rw [if_neg hj]; exact id

theorem State.PagesKept.takeCommit {s : State} {i : Fin 2} {r : LoadSlot} (hr : s.load.slots[i] = some r) :
    s.PagesKept (s.takeCommit i r).1 := by
  unfold State.takeCommit
  simp only
  split
  · rename_i hv
    exact .trans (.place hr hv _) (.keyCommitted _ _)
  · rename_i v hv
    refine .trans ?_ (.keyCommitted _ _)
    split
    · exact .trans (.replace hr hv _) (.recompose _ _)
    · exact .replace hr hv _

/-- R41: a condition that COMMIT gives replaces the slot's. -/
theorem State.PagesKept.setCondition {s : State} {i : Fin 2} {r : LoadSlot} (hr : s.load.slots[i] = some r)
    (c : CommitCondition) : s.PagesKept (s.setLoad (s.load.setSlot i (some { r with condition := c }))) := by
  refine ⟨fun h => h.same h.1 (fun _ => rfl) (fun _ => rfl) (fun _ => rfl) (fun _ => rfl) (fun _ => rfl) rfl
    (fun j => ?_) rfl h.2.2.2.2.2, rfl, fun _ => id, rfl⟩
  rw [State.setLoad_load, Decoder.setSlot_slot]
  split
  · rename_i hj; rw [hj, hr]; rfl
  · rfl

/-- R41: COMMIT keeps the pages whether or not it is taken. -/
theorem commitRule_kept (p : List Byte) (s : State) : s.PagesKept (commitRule p s).1 := by
  unfold commitRule
  split
  · exact .refl s
  · split
    · exact .refl s
    · rename_i i cond _ _ r0 h
      have kept := State.PagesKept.setCondition h (cond.getD r0.condition)
      simp only
      split
      · exact kept
      · exact kept.trans (.takeCommit ((Decoder.setSlot_slot _ _ _ _).trans (if_pos rfl)))

end Sys2Proof.Machine
end

section
/-! SUPPORT. How far a stream reaches (R27 to R38): decoding keeps its slot's entry, key and kind, and writes no frame but that
entry's. -/

namespace Sys2Proof.Machine

/-- R22: the write position lies on the page, the record says when it has passed the end, and the frames' store is in
canonical form. -/
def StreamWork.Fits (w : StreamWork) : Prop :=
  w.slot.position ≤ 1280 ∧ w.slot.complete = decide (w.slot.position = 1280) ∧ Memory.wf w.frames = true

/-- `w'` has come from `w` by decoding: its slot has the same entry, key and kind, it still fits its page, and no other
frame has changed. -/
structure StreamWork.Goes (w w' : StreamWork) : Prop where
  page : w'.slot.page = w.slot.page
  fits : w.Fits → w'.Fits
  frames : w.Fits → ∀ (j : Fin 48) (o : Nat), o < 1280 → j ≠ w.slot.entry →
    storeRead 0#8 w'.frames (frameAddress j o) = storeRead 0#8 w.frames (frameAddress j o)

theorem StreamWork.Goes.entry {w w' : StreamWork} (h : w.Goes w') : w'.slot.entry = w.slot.entry := congrArg Prod.fst h.page

theorem StreamWork.Goes.refl (w : StreamWork) : w.Goes w := ⟨rfl, id, fun _ _ _ _ _ => rfl⟩

theorem StreamWork.Goes.trans {w v u : StreamWork} (h : w.Goes v) (k : v.Goes u) : w.Goes u :=
  ⟨k.page.trans h.page, k.fits ∘ h.fits, fun f j o ho hj =>
    (k.frames (h.fits f) j o ho (by rw [h.entry]; exact hj)).trans (h.frames f j o ho hj)⟩

/-- What is neither position nor frame may change. -/
theorem StreamWork.Goes.of_same {w w' : StreamWork} (page : w'.slot.page = w.slot.page)
    (position : w'.slot.position = w.slot.position) (complete : w'.slot.complete = w.slot.complete)
    (frames : w'.frames = w.frames) : w.Goes w' :=
  ⟨page, fun f => by rw [StreamWork.Fits, position, complete, frames]; exact f, fun _ j o _ _ => by rw [frames]⟩

theorem StreamWork.Fits.below {w : StreamWork} (h : w.Fits) (open' : w.slot.complete = false) : w.slot.position < 1280 := by
  obtain ⟨hle, hc, -⟩ := h
  rw [open'] at hc
  have : w.slot.position ≠ 1280 := by simpa using hc.symm
  omega

theorem StreamWork.Goes.setText (w : StreamWork) (t : TextState) : w.Goes (w.setText t) := .of_same rfl rfl rfl rfl

/-- R36: an offered mark changes the mark list or the dropped count alone. -/
theorem StreamWork.offer_same (w : StreamWork) (m : Mark) :
    (w.offer m).slot.page = w.slot.page ∧ (w.offer m).slot.position = w.slot.position ∧
      (w.offer m).slot.complete = w.slot.complete ∧ (w.offer m).frames = w.frames := by
  unfold StreamWork.offer
  split_ifs <;> exact ⟨rfl, rfl, rfl, rfl⟩

/-- R35, R36: closing a mark moves nothing and writes no frame. -/
theorem StreamWork.closeMark_same (w : StreamWork) (c : Nat) :
    (w.closeMark c).slot.page = w.slot.page ∧ (w.closeMark c).slot.position = w.slot.position ∧
      (w.closeMark c).slot.complete = w.slot.complete ∧ (w.closeMark c).frames = w.frames := by
  unfold StreamWork.closeMark
  split
  · exact ⟨rfl, rfl, rfl, rfl⟩
  · exact StreamWork.offer_same _ _

theorem StreamWork.Goes.closeMark (w : StreamWork) (c : Nat) : w.Goes (w.closeMark c) := by
  obtain ⟨page, position, complete, frames⟩ := w.closeMark_same c
  exact .of_same page position complete frames

theorem StreamWork.Goes.markOpen (w : StreamWork) (c : MarkClass) : w.Goes (w.markOpen c) :=
  .trans (.closeMark w _) (.of_same rfl rfl rfl rfl)

/-- R28, R37: the write position moves to a place on the page. -/
theorem StreamWork.Goes.moveTo (w : StreamWork) (target : Nat) (h : target ≤ 1280) : w.Goes (w.moveTo target) := by
  have closed : w.Goes (if w.slot.position / Config.cellsPerLine ≠ target / Config.cellsPerLine then
      w.closeMark Config.cellsPerLine else w) := by
    split
    · exact .closeMark w _
    · exact .refl w
  refine closed.trans ⟨rfl, fun f => ⟨h, ?_, f.2.2⟩, fun _ _ _ _ _ => rfl⟩
  exact (decide_eq_decide (p := 1280 ≤ target) (q := target = 1280)).mpr (by omega)

/-- R28, R31: a run of cells that ends on the page is written to the entry's frame. -/
theorem StreamWork.Goes.writeRun (w : StreamWork) (o : Nat) (bytes : List Byte) (h : w.Fits → o + bytes.length ≤ 1280) :
    w.Goes { w with frames := writeFrameRun w.frames w.slot.entry o bytes } := by
  refine ⟨rfl, fun f => ⟨f.1, f.2.1, writeFrameRun_wf _ _ _ _ f.2.2⟩, fun f j p hp hj => ?_⟩
  simp only
  rw [read_writeFrameRun _ _ _ _ _ _ (h f) hp f.2.2, if_neg (fun e => hj e.1)]

/-- R28, R38: one cell is written before the end of the page. -/
theorem StreamWork.Goes.writeCell (w : StreamWork) (b : Byte) (h : w.slot.complete = false) :
    w.Goes { w with frames := writeFrame w.frames w.slot.entry w.slot.position b } :=
  .writeRun w w.slot.position [b] fun f => by have := f.below h; simp only [List.length_singleton]; omega

/-- A move that is within the page wherever the stream fits it. -/
theorem StreamWork.Goes.moveTo' (w : StreamWork) (target : Nat) (h : w.Fits → target ≤ 1280) : w.Goes (w.moveTo target) := by
  by_cases ht : target ≤ 1280
  · exact .moveTo w target ht
  · refine ⟨?_, fun f => absurd (h f) ht, fun f => absurd (h f) ht⟩
    unfold StreamWork.moveTo
    simp only
    split
    · exact (w.closeMark_same _).1
    · rfl

theorem StreamWork.Goes.advance (w : StreamWork) (h : w.slot.complete = false) : w.Goes w.advance :=
  .moveTo' w _ fun f => f.below h

theorem StreamWork.Goes.putCell (w : StreamWork) (b : Byte) (h : w.slot.complete = false) : w.Goes (w.putCell b) :=
  .trans (.writeCell w b h) (.advance _ h)

theorem StreamWork.Goes.lineEnd (w : StreamWork) (h : w.slot.complete = false) : w.Goes w.lineEnd := by
  refine .trans (.writeRun w w.slot.position (List.replicate _ 0) fun f => ?_) (.moveTo' _ _ fun f => ?_)
  · have := f.below h
    simp only [List.length_replicate, Config.cellsPerLine]
    omega
  · have := f.below h
    simp only [Config.cellsPerLine] at this ⊢
    omega

theorem StreamWork.Goes.pageEnd (w : StreamWork) (h : w.slot.complete = false) : w.Goes w.pageEnd := by
  refine .trans (.writeRun w w.slot.position (List.replicate _ 0) fun f => ?_) (.moveTo' _ _ fun f => ?_)
  · have := f.below h
    simp only [List.length_replicate, Config.frameBytes]
    omega
  · simp [Config.frameBytes]

theorem StreamWork.Goes.repeatCell (pattern : Byte) (n : Nat) (w : StreamWork) : w.Goes (w.repeatCell pattern n) := by
  induction n generalizing w with
  | zero => exact .refl w
  | succ n ih =>
    unfold StreamWork.repeatCell
    split
    · exact .refl w
    · rename_i h; exact .trans (.putCell w pattern (by simpa using h)) (ih _)

theorem StreamWork.Goes.skip (n : Nat) (w : StreamWork) : w.Goes (w.skip n) := by
  induction n generalizing w with
  | zero => exact .refl w
  | succ n ih =>
    unfold StreamWork.skip
    split
    · exact .refl w
    · rename_i h; exact .trans (.advance w (by simpa using h)) (ih _)

theorem StreamWork.Goes.begin (w : StreamWork) (a : ControlAction) (h : w.slot.complete = false) : w.Goes (w.begin a) := by
  cases a with
  | lineEnd => exact .trans (.setText w _) (.lineEnd _ h)
  | pageEnd => exact .trans (.setText w _) (.pageEnd _ h)
  | repeatCell => exact .setText w _
  | skip => exact .setText w _
  | markOpen => exact .setText w _
  | markClose => exact .trans (.setText w _) (.closeMark _ _)

/-- R28, R29, R34: one byte of a TEXT stream. -/
theorem StreamWork.Goes.textByte {escape : Byte} {codes : List ControlEntry} {w w' : StreamWork} {b : Byte}
    (h : w.slot.complete = false) (e : w.textByte escape codes b = .ok w') : w.Goes w' := by
  unfold StreamWork.textByte at e
  split at e
  · split at e <;> cases e
    · exact .setText w _
    · exact .putCell w b h
  · split at e
    · cases e; exact .trans (.setText w _) (.putCell _ b h)
    · split at e <;> cases e
      exact .begin w _ h
  · cases e; exact .setText w _
  · cases e; exact .trans (.setText w _) (.repeatCell _ _ _)
  · cases e; exact .trans (.setText w _) (.skip _ _)
  · split at e <;> cases e
    exact .trans (.setText w _) (.markOpen _ _)

/-- R38: one byte of a RAW stream. -/
theorem StreamWork.Goes.rawByte (w : StreamWork) (b : Byte) (h : w.slot.complete = false) : w.Goes (w.rawByte b) := by
  refine .trans (.writeCell w b h) ⟨rfl, fun f => ⟨?_, ?_, f.2.2⟩, fun _ _ _ _ _ => rfl⟩
  · exact f.below h
  · have below : w.slot.position < 1280 := f.below h
    exact (decide_eq_decide (p := 1280 ≤ w.slot.position + 1) (q := w.slot.position + 1 = 1280)).mpr (by omega)

theorem StreamWork.Goes.byte {escape : Byte} {codes : List ControlEntry} {w w' : StreamWork} {b : Byte}
    (h : w.slot.complete = false) (e : w.byte escape codes b = .ok w') : w.Goes w' := by
  unfold StreamWork.byte at e
  have counted : w.Goes { w with slot := { w.slot with offset := w.slot.offset + 1 } } := .of_same rfl rfl rfl rfl
  simp only at e
  split at e
  · exact counted.trans (.textByte h e)
  · cases e; exact counted.trans (.rawByte _ b h)

/-- The work of a DATA as far as its decoding came. -/
def DataEnd.work : DataEnd → StreamWork
  | .done w _ _ => w
  | .fatal w _ _ => w

/-- R27: the decoding of the bytes of a DATA. -/
theorem decodeBytes_goes (escape : Byte) (codes : List ControlEntry) (bytes : List Byte) (w : StreamWork) (n : Nat) :
    w.Goes (decodeBytes escape codes w n bytes).work := by
  induction bytes generalizing w n with
  | nil => exact .refl w
  | cons b rest ih =>
    unfold decodeBytes
    split
    · exact .refl w
    · rename_i h
      split
      · rename_i w' e
        exact .trans (.byte (by simpa using h) e) (ih w' _)
      · exact .refl w

end Sys2Proof.Machine
end

section
/-! SUPPORT. What every row does to the pages, the sweep's counts and the frames of visible entries (R4, R93). -/

namespace Sys2Proof.Machine

/-- `t` has come from `s` by changes that keep the pages in agreement, let the sweep go on as it was and set no HELD flag. -/
structure State.EntriesKept (s t : State) : Prop where
  agree : s.PagesAgree → t.PagesAgree
  sweep : t.sweep = s.sweep
  held : ∀ i : Fin 48, t.dir.entries[i].held = true → s.dir.entries[i].held = true

theorem State.PagesKept.entries {s t : State} (h : s.PagesKept t) : s.EntriesKept t := ⟨h.agree, h.sweep, h.held⟩

theorem State.EntriesKept.trans {s t u : State} (h : s.EntriesKept t) (k : t.EntriesKept u) : s.EntriesKept u :=
  ⟨k.agree ∘ h.agree, k.sweep.trans h.sweep, fun i => h.held i ∘ k.held i⟩

/-- What a step keeps of the pages and of the sweep's counts (R93). -/
structure State.PagesStep (s t : State) : Prop where
  agree : s.PagesAgree → t.PagesAgree
  counts : s.PagesAgree → s.SweepCountsSound → t.SweepCountsSound

/-- R4: an entry that is visible before and after keeps its frame. -/
def State.FramesStep (s t : State) : Prop :=
  s.PagesAgree → s.MarksSound → s.StoresCanonical → ∀ (i : Fin 48) (o : Nat), o < 1280 →
    s.dir.entries[i].visible = true → t.dir.entries[i].visible = true → t.dir.frameByte i o = s.dir.frameByte i o

theorem Directory.mem_heldEntries {d : Directory} {i : Fin 48} : i ∈ d.heldEntries ↔ d.entries[i].held = true := by
  simp [Directory.heldEntries]

theorem Directory.heldEntries_nodup (d : Directory) : d.heldEntries.Nodup := (List.nodup_finRange 48).filter _

/-- Where no flag is set, the HELD entries do not grow more. -/
theorem Directory.heldEntries_mono {d d' : Directory}
    (h : ∀ i : Fin 48, d'.entries[i].held = true → d.entries[i].held = true) :
    d'.heldEntries.length ≤ d.heldEntries.length :=
  (List.subperm_of_subset d'.heldEntries_nodup fun i hi =>
    Directory.mem_heldEntries.mpr (h i (Directory.mem_heldEntries.mp hi))).length_le

/-- Where a HELD entry is released, the HELD entries grow fewer. -/
theorem Directory.heldEntries_released {d d' : Directory} {i : Fin 48}
    (h : ∀ i : Fin 48, d'.entries[i].held = true → d.entries[i].held = true) (was : d.entries[i].held = true)
    (now : d'.entries[i].held = false) : d'.heldEntries.length + 1 ≤ d.heldEntries.length := by
  have nodup : (i :: d'.heldEntries).Nodup := List.nodup_cons.mpr
    ⟨fun hi => absurd (Directory.mem_heldEntries.mp hi) (by rw [now]; simp), d'.heldEntries_nodup⟩
  refine (List.subperm_of_subset nodup fun j hj => ?_).length_le
  rw [Directory.mem_heldEntries]
  rcases List.mem_cons.mp hj with rfl | hj
  · exact was
  · exact h j (Directory.mem_heldEntries.mp hj)

theorem State.EntriesKept.step {s t : State} (h : s.EntriesKept t) : s.PagesStep t := by
  refine ⟨h.agree, fun _ c r hr => ?_⟩
  rw [h.sweep] at hr
  obtain ⟨h1, h2⟩ := c r hr
  have := Directory.heldEntries_mono h.held
  exact ⟨by omega, h2⟩

theorem State.FramesStep.of_frames {s t : State} (h : t.dir.frames = s.dir.frames) : s.FramesStep t :=
  fun _ _ _ i o _ _ _ => by rw [Directory.frameByte, Directory.frameByte, h]

theorem State.PagesStep.after {s t u : State} (h : s.PagesStep t) (k : t.EntriesKept u) : s.PagesStep u :=
  ⟨k.agree ∘ h.agree, fun p c => k.step.counts (h.agree p) (h.counts p c)⟩

theorem State.FramesStep.after {s t u : State} (h : s.FramesStep t) (dir : u.dir = t.dir) : s.FramesStep u := by
  unfold State.FramesStep
  rw [dir]
  exact h

/-! ### PATCH CELLS -/

theorem State.EntriesKept.patch {s : State} {i : Fin 48} (visible : s.dir.entries[i].visible = true) (line : Fin 32)
    (first : Nat) (cells : List Byte) : s.EntriesKept (s.setDir (s.dir.patch i line first cells)) := by
  have kept : s.PagesKept (s.setDir (s.dir.setEntry i { s.dir.entries[i] with
      revision := s.dir.entries[i].revision + 1 })) :=
    .contents (fun h => Entry.shaped_of_visible h visible rfl rfl rfl) rfl rfl rfl rfl rfl id
  exact ⟨fun h => (kept.agree h).congr rfl rfl rfl rfl rfl, kept.sweep, kept.held⟩

theorem patchCellsRule_answers (p : List Byte) (s : State) : Reply.Answers s s.EntriesKept (patchCellsRule p s) := by
  unfold patchCellsRule
  split
  · split
    · split
      · split
        · exact .refused _
        · rename_i h
          exact .ok (.trans (.patch (State.checkEntry_visible h) _ _ _) (State.PagesKept.tellLines _ _ _).entries)
      · exact .refused _
    · exact .refused _
  · exact .refused _

/-! ### OPEN LOAD -/

theorem Directory.openEntry_entry (d : Directory) (i j : Fin 48) (slot : Fin 2) (a : OpenArgs) :
    (d.openEntry i slot a).entries[j] = if j = i then loadingEntryOf a slot else d.entries[j] := by
  refine (Directory.setEntry_entry _ _ _ _).trans ?_
  rw [Directory.freeEntry_entry]
  by_cases h : j = i <;> simp only [h, if_true, if_false]

/-- R12, R25: an entry is given to a load. -/
theorem openLoadRule_answers (p : List Byte) (s : State) :
    Reply.Answers s (fun t => s.PagesStep t ∧ s.FramesStep t) (openLoadRule p s) := by
  unfold openLoadRule
  split
  · exact .refused _
  · rename_i a _
    split
    · exact .refused _
    · rename_i fresh
      split
      · exact .refused _
      · rename_i slot hslot
        split
        · exact .refused _
        · rename_i i reclaimed hi
          have entry := fun j => Directory.openEntry_entry s.dir i j slot a
          have newKey := Decoder.slotOfKey_none.mp (by simpa using fresh)
          have given := Directory.chooseEntry_some hi
          refine .ok ⟨State.EntriesKept.step ?_, fun _ _ canonical j o ho _ hj => ?_⟩
          · refine ⟨fun h => ?_, rfl, fun j => ?_⟩
            · exact h.opened (r := openRecord a i) entry rfl (fun j => Decoder.setSlot_slot _ _ _ _) rfl rfl
                (given.imp And.right fun g => g.2.1) (Decoder.lowestIdle_some hslot) newKey ⟨rfl, rfl, rfl, rfl⟩ ⟨rfl, rfl⟩
            · change (s.dir.openEntry i slot a).entries[j].held = true → _
              rw [entry]; split
              · intro hf; cases hf
              · exact id
          · change (s.dir.openEntry i slot a).entries[j].visible = true at hj
            refine (read_clearFrame _ _ _ _ ho canonical.1).trans (if_neg ?_)
            rintro rfl
            rw [entry, if_pos rfl] at hj
            cases hj

/-! ### DATA -/

/-- R27: a stream's work is put back: the slot and its entry agree as before. -/
theorem State.EntriesKept.storeWork {s : State} {i : Fin 2} {r : LoadSlot} {w : StreamWork}
    (hr : s.load.slots[i] = some r) (h : (s.streamWork r).Goes w) : s.EntriesKept (s.storeWork i w) := by
  have entry : ∀ j : Fin 48, (s.storeWork i w).dir.entries[j] =
      if j = w.slot.entry then { s.dir.entries[w.slot.entry] with marks := w.marks } else s.dir.entries[j] :=
    fun j => getElem_set_fin _ _ _ _
  have keeps : ∀ j : Fin 48, (s.storeWork i w).dir.entries[j].held = s.dir.entries[j].held := fun j => by
    rw [entry]; split
    · rename_i hj; rw [hj]
    · rfl
  refine ⟨fun a => a.same ?_ ?_ ?_ ?_ ?_ ?_ rfl (fun j => ?_) rfl fun j hj => ?_, rfl, fun j => by rw [keeps]; exact id⟩
  case refine_7 =>
    refine (congrArg (Option.map LoadSlot.page) (Decoder.setSlot_slot _ _ _ _)).trans ?_
    split
    · rename_i hj; rw [hj, hr]; exact congrArg some h.page
    · rfl
  case refine_8 =>
    have := a.2.2.2.2.2 j (by rw [← keeps]; exact hj)
    refine ⟨?_, this.2⟩
    rw [entry]; split
    · rename_i e; subst e; exact this.1
    · exact this.1
  case refine_1 =>
    have loading : ∀ j, j = r.entry → s.dir.entries[j].state = .loading := by
      rintro _ rfl; exact (a.2.1.1 i r hr).1
    replace loading := loading w.slot.entry h.entry
    intro j
    rw [entry]; split
    · have own := a.1 w.slot.entry
      refine ⟨fun hf => ?_, own.2.1, own.2.2.1, own.2.2.2⟩
      rw [show s.dir.entries[w.slot.entry].state = .free from hf] at loading
      cases loading
    · exact a.1 j
  all_goals
    intro j
    rw [entry]; split
    · rename_i hj; rw [hj]
    · rfl

theorem State.FramesStep.storeWork {s : State} {i : Fin 2} {r : LoadSlot} {w : StreamWork}
    (hr : s.load.slots[i] = some r) (h : (s.streamWork r).Goes w) {t : State}
    (frames : t.dir.frames = w.frames) : s.FramesStep t := by
  intro agree sound canonical j o ho hj _
  have fits : (s.streamWork r).Fits := ⟨(sound.2 i r hr).1, (sound.2 i r hr).2.1, canonical.1⟩
  have loading := (agree.2.1.1 i r hr).1
  rw [Directory.frameByte, frames]
  refine h.frames fits j o ho ?_
  rintro rfl
  rw [Entry.visible_iff] at hj
  rcases hj with hj | hj <;> exact absurd (hj.symm.trans loading) (by simp)

/-- R27, R39: a DATA is refused, or it is taken, with its load ended by a fatal error or not. -/
theorem dataRule_answers (p : List Byte) (s : State) :
    (dataRule p s).1 = s ∨ (((dataRule p s).2.status = .ok ∨ (dataRule p s).2.status = .streamFault) ∧
      s.PagesStep (dataRule p s).1 ∧ s.FramesStep (dataRule p s).1) := by
  unfold dataRule
  split
  · exact .inl rfl
  · split
    · exact .inl rfl
    · split
      · exact .inl rfl
      · split
        · exact .inl rfl
        · rename_i sl bytes _ i _ _ _ r hr
          split
          · exact .inl rfl
          · have goes := decodeBytes_goes s.load.escape s.load.codes.toList bytes (s.streamWork r) 0
            split
            · rename_i w consumed discarded e
              rw [e] at goes
              exact .inr ⟨.inl rfl, (State.EntriesKept.storeWork hr goes).step, .storeWork hr goes rfl⟩
            · rename_i w err offset e
              rw [e] at goes
              have stored : (s.storeWork i w).load.slots[i] = some w.slot :=
                (Decoder.setSlot_slot _ _ _ _).trans (if_pos rfl)
              have ended := State.PagesKept.fatalStream stored err offset
              exact .inr ⟨.inr rfl, ((State.EntriesKept.storeWork hr goes).trans ended.entries).step,
                .storeWork hr goes ended.frames⟩

/-! ### Sweeps (R86 to R94) -/

theorem Directory.holdMatching_entry (d : Directory) (desc : SweepDescriptor) (j : Fin 48) :
    (d.holdMatching desc).entries[j] =
      if desc.covers d.entries[j] then { d.entries[j] with held := true } else d.entries[j] := by
  simp [Directory.holdMatching]

theorem Directory.releaseAll_entry (d : Directory) (j : Fin 48) :
    d.releaseAll.entries[j] = { d.entries[j] with held := false } := by
  simp [Directory.releaseAll]

theorem Directory.holdMatching_queue (d : Directory) (desc : SweepDescriptor) :
    (d.holdMatching desc).queue = d.queue := by unfold Directory.holdMatching; rfl
theorem Directory.holdMatching_frames (d : Directory) (desc : SweepDescriptor) :
    (d.holdMatching desc).frames = d.frames := by unfold Directory.holdMatching; rfl
theorem Directory.releaseAll_queue (d : Directory) : d.releaseAll.queue = d.queue := by
  unfold Directory.releaseAll; rfl
theorem Directory.releaseAll_frames (d : Directory) : d.releaseAll.frames = d.frames := by
  unfold Directory.releaseAll; rfl

/-- R83: an entry that matches is visible. -/
theorem SweepDescriptor.covers_visible {d : SweepDescriptor} {e : Entry} (h : d.covers e = true) : e.visible = true := by
  unfold SweepDescriptor.covers at h
  split at h
  · cases h
  · simp only [Bool.and_eq_true] at h
    exact h.1.1.1.1

/-- R8: with no sweep RUNNING no entry is HELD. -/
theorem State.PagesAgree.none_held {s : State} (h : s.PagesAgree) (idle : s.sweep = none) (i : Fin 48) :
    s.dir.entries[i].held = false := by
  by_contra hh
  obtain ⟨-, p, hp, -⟩ := h.2.2.2.2.2 i (by simpa using hh)
  rw [idle] at hp
  cases hp

theorem State.HeldByTheSweep.none {s : State} (h : ∀ i : Fin 48, s.dir.entries[i].held = false) : s.HeldByTheSweep :=
  fun i hi => by rw [h i] at hi; cases hi

/-- R8: nothing but the HELD flags of visible entries has changed. -/
theorem State.PagesAgree.flags {s t : State} (h : s.PagesAgree)
    (entries : ∀ j : Fin 48, ∃ b, t.dir.entries[j] = { s.dir.entries[j] with held := b } ∧
      (b = true → s.dir.entries[j].visible = true))
    (queue : t.dir.queue = s.dir.queue) (slots : t.load.slots = s.load.slots)
    (shownKey : t.nav.shownKey = s.nav.shownKey) (held : t.HeldByTheSweep) : t.PagesAgree := by
  refine h.same (fun j => ?_) ?_ ?_ ?_ ?_ ?_ queue (fun _ => by rw [slots]) shownKey held
  · obtain ⟨b, e, hb⟩ := entries j
    have own := h.1 j
    rw [e]
    cases b with
    | true => exact Entry.shaped_of_visible own (hb rfl) rfl rfl rfl
    | false => exact ⟨fun hf => by rw [own.1 hf]; rfl, own.2.1, fun hl => ⟨(own.2.2.1 hl).1, rfl⟩, own.2.2.2⟩
  all_goals
    intro j
    obtain ⟨b, e, -⟩ := entries j
    rw [e]

/-- R86: the matching entries become HELD, and a sweep starts that has them all before it. -/
theorem State.PagesStep.holdMatching {s : State} (desc : SweepDescriptor) (idle : s.sweep = none) :
    s.PagesStep ((s.setDir (s.dir.holdMatching desc)).setSweep (some ⟨desc, 0, s.dir.matching desc, 0, 0, 0⟩)) := by
  have entry := fun j => Directory.holdMatching_entry s.dir desc j
  have flags : s.PagesAgree → ∀ j : Fin 48, (s.dir.holdMatching desc).entries[j] =
      { s.dir.entries[j] with held := desc.covers s.dir.entries[j] } := fun h j => by
    have none := h.none_held idle j
    rw [entry]
    split
    · rename_i hc; rw [hc]
    · rename_i hc; rw [(Bool.not_eq_true _).mp hc, ← none]
  refine ⟨fun h => h.flags (fun j => ⟨_, flags h j, SweepDescriptor.covers_visible⟩)
    (Directory.holdMatching_queue _ _) rfl rfl fun j hj => ?_,
    fun h _ r hr => ?_⟩
  · change (s.dir.holdMatching desc).entries[j].held = true at hj
    change (s.dir.holdMatching desc).entries[j].visible = true ∧ _
    rw [flags h j] at hj ⊢
    exact ⟨SweepDescriptor.covers_visible hj, 0, rfl, Nat.zero_le _⟩
  · obtain rfl : _ = r := by simpa using hr
    have same : (s.dir.holdMatching desc).heldEntries = (List.finRange 48).filter fun i => desc.covers s.dir.entries[i] :=
      List.filter_congr fun j _ => congrArg Entry.held (flags h j)
    have bound := List.length_filter_le (fun i : Fin 48 => desc.covers s.dir.entries[i]) (List.finRange 48)
    rw [List.length_finRange] at bound
    change (s.dir.holdMatching desc).heldEntries.length + 0 + 0 + 0 ≤ s.dir.matching desc ∧ s.dir.matching desc ≤ 48
    rw [same]
    exact ⟨Nat.le_refl _, bound⟩

theorem sweepRule_answers (p : List Byte) (s : State) :
    Reply.Answers s (fun t => s.PagesStep t ∧ s.FramesStep t) (sweepRule p s) := by
  unfold sweepRule
  split
  · exact .refused _
  · split
    · exact .refused _
    · rename_i idle
      exact .inr ⟨.inr rfl, .holdMatching _ idle, .of_frames (Directory.holdMatching_frames _ _)⟩

/-- R94: with every flag cleared the sweep may end. -/
theorem abortSweepRule_answers (p : List Byte) (s : State) :
    Reply.Answers s (fun t => s.PagesStep t ∧ s.FramesStep t) (abortSweepRule p s) := by
  unfold abortSweepRule
  split
  · exact .ok ⟨(State.PagesKept.refl s).entries.step, .of_frames rfl⟩
  · rename_i r _
    simp only
    generalize s.dir.heldEntries.filterMap (fun i => s.dir.entries[i].key) = keys
    have entry := fun j => Directory.releaseAll_entry s.dir j
    have released : ∀ j : Fin 48, (s.setDir s.dir.releaseAll).dir.entries[j].held = false := fun j => by
      change s.dir.releaseAll.entries[j].held = false
      rw [entry]
    have told := (State.PagesKept.tellReleased keys (s.setDir s.dir.releaseAll)).trans (.post _ (r.notice true))
    generalize (((s.setDir s.dir.releaseAll).tellReleased keys).post (r.notice true)) = t at told
    have none : ∀ j : Fin 48, t.dir.entries[j].held = false := fun j => by
      by_contra hh
      have := told.held j (by simpa using hh)
      rw [released j] at this
      cases this
    refine .ok ⟨⟨fun h => ?_, fun _ _ q hq => by cases hq⟩, .of_frames (told.frames.trans (Directory.releaseAll_frames _))⟩
    have agree := told.agree (h.flags (fun j => ⟨false, entry j, by simp⟩) (Directory.releaseAll_queue _) rfl rfl (.none released))
    exact agree.flags (fun j => ⟨false, by rw [← none j]; rfl, by simp⟩) rfl rfl rfl (.none none)

end Sys2Proof.Machine
end

section
/-! SUPPORT. The visits of a sweep (R87 to R93), the resets, and every row at once. -/

namespace Sys2Proof.Machine

/-- R8: the pages are kept, and entry `i` is not HELD any more. -/
structure State.Releases (s : State) (i : Fin 48) (t : State) : Prop where
  kept : s.PagesKept t
  released : t.dir.entries[i].held = false

theorem State.Releases.after {s t u : State} {i : Fin 48} (h : s.Releases i t) (k : t.PagesKept u) : s.Releases i u :=
  ⟨h.kept.trans k, by
    by_contra hh
    have := k.held i (by simpa using hh)
    rw [h.released] at this
    cases this⟩

theorem State.Releases.release {s : State} {i : Fin 48} (visible : s.dir.entries[i].visible = true) :
    s.Releases i (s.setDir (s.dir.release i)) :=
  ⟨.release visible, (congrArg Entry.held (Directory.setEntry_entry _ _ _ _)).trans (by rw [if_pos rfl])⟩

theorem State.Releases.retire {s : State} {i : Fin 48} (ready : s.dir.entries[i].state = .ready) :
    s.Releases i (s.setDir (s.dir.freeEntry i)) :=
  ⟨.retire ready, (congrArg Entry.held (Directory.freeEntry_entry _ _ _)).trans (by rw [if_pos rfl]; rfl)⟩

theorem Directory.visitApply_entry (dir : Directory) (i j : Fin 48) (d : SweepDescriptor) (k : Key) :
    (dir.visitApply i d k).entries[j] =
      if j = i then { d.applyTo dir.entries[i] k with pinned := d.setPin.getD dir.entries[i].pinned }
      else dir.entries[j] := by
  unfold Directory.visitApply
  cases d.setPin with
  | none => exact Directory.setEntry_entry _ _ _ _
  | some p =>
    refine (Directory.setPinned_entry _ _ _ _).trans ?_
    rw [Directory.setEntry_entry, Directory.setEntry_entry, if_pos rfl]
    by_cases h : j = i <;> simp only [h, if_true, if_false]
    rfl

@[simp] theorem Directory.visitApply_frames (dir : Directory) (i : Fin 48) (d : SweepDescriptor) (k : Key) :
    (dir.visitApply i d k).frames = dir.frames := by
  unfold Directory.visitApply
  cases d.setPin with
  | none => rfl
  | some p => simp

/-- R10, R89: the queue follows the pinned value of the visited entry. -/
theorem Directory.visitApply_queue {dir : Directory} {i : Fin 48} (d : SweepDescriptor) (k : Key) (h : dir.QueueExact) :
    (dir.visitApply i d k).queue.Nodup ∧ ∀ j : Fin 48, j ∈ (dir.visitApply i d k).queue ↔
      if j = i then dir.entries[i].state = .ready ∧ d.setPin.getD dir.entries[i].pinned = false else j ∈ dir.queue := by
  have own : (dir.setEntry i (d.applyTo dir.entries[i] k)).entries[i].state = dir.entries[i].state := by
    rw [Directory.setEntry_entry, if_pos rfl]; rfl
  unfold Directory.visitApply
  cases d.setPin with
  | none =>
    refine ⟨h.1, fun j => ?_⟩
    by_cases hj : j = i
    · rw [if_pos hj, hj]; exact h.2 i
    · rw [if_neg hj]; rfl
  | some p =>
    refine ⟨Directory.setPinned_nodup _ _ _ h.1, fun j => (Directory.setPinned_mem _ i j p fun hi => ?_).trans ?_⟩
    · rw [own]; exact ((h.2 i).mp hi).1
    · rw [own]; rfl

/-- R89, R90: the actions of a visit are applied to a visible entry whose new key is not taken; navigation's shown key has
followed it if it is SHOWN. -/
theorem State.Releases.visitApply {s t : State} {i : Fin 48} {d : SweepDescriptor} {k : Key}
    (visible : s.dir.entries[i].visible = true) (key : s.dir.entries[i].key = some k)
    (free : d.keyAfter k = k ∨ s.dir.visibleEntry (d.keyAfter k) = none)
    (dir : t.dir = s.dir.visitApply i d k) (load : t.load = s.load) (sweep : t.sweep = s.sweep)
    (shownKey : s.PagesAgree →
      t.nav.shownKey = if s.dir.entries[i].state = .shown then some (d.keyAfter k) else s.nav.shownKey) :
    s.Releases i t := by
  have entry : ∀ j : Fin 48, t.dir.entries[j] = if j = i then
      { d.applyTo s.dir.entries[i] k with pinned := d.setPin.getD s.dir.entries[i].pinned } else s.dir.entries[j] :=
    fun j => by rw [dir]; exact Directory.visitApply_entry _ _ _ _ _
  have released : t.dir.entries[i].held = false := by rw [entry, if_pos rfl]; rfl
  refine ⟨⟨fun h => ?_, sweep, fun j => ?_, by rw [dir, Directory.visitApply_frames]⟩, released⟩
  · obtain ⟨nodup, mem⟩ := Directory.visitApply_queue (i := i) d k h.2.2.2.1
    refine h.edit entry (by rw [load]) sweep visible rfl rfl ?_ (fun hf => by cases hf) (by rw [dir]; exact nodup)
      (fun j => by rw [dir]; exact mem j) (shownKey h)
    rcases free with same | none
    · exact .inl (by rw [key]; exact congrArg some same)
    · exact .inr ⟨by simp [SweepDescriptor.applyTo], Directory.visibleEntry_none.mp none⟩
  · rw [entry]; split
    · intro hf; cases hf
    · exact id

/-- R82, R93: the entries that a sweep has counted. -/
def SweepRun.counted (r : SweepRun) : Nat := r.changed + r.skippedShown + r.collisions

/-- R88 to R90: a visit to a HELD entry releases it. -/
theorem State.visitHeld_releases {s : State} (r : SweepRun) {i : Fin 48} {k : Key}
    (visible : s.dir.entries[i].visible = true) (key : s.dir.entries[i].key = some k) :
    s.Releases i (s.visitHeld r i k).1 := by
  have isReleased : s.Releases i ((s.setDir (s.dir.release i)).keyReleased k) :=
    (State.Releases.release visible).after (.keyReleased _ _)
  unfold State.visitHeld
  simp only
  split
  · split
    · exact isReleased
    · rename_i notShown
      exact (State.Releases.retire (((Entry.visible_iff _).mp visible).resolve_right notShown)).after (.keyReleased _ _)
  · split
    · exact isReleased
    · rename_i notTaken
      have free : r.descriptor.keyAfter k = k ∨ s.dir.visibleEntry (r.descriptor.keyAfter k) = none := by
        by_contra hn
        rw [not_or] at hn
        exact notTaken ⟨hn.1, by simp [State.keyTaken, Option.isSome_iff_ne_none, hn.2]⟩
      generalize hu : (if ((s.dir.entries[i].marks.filter r.descriptor.removes).map Mark.line = []) then
        s.setDir (s.dir.visitApply i r.descriptor k) else (s.setDir (s.dir.visitApply i r.descriptor k)).tellLines i
          ((s.dir.entries[i].marks.filter r.descriptor.removes).map Mark.line)) = u
      have path : PinPath (s.setDir (s.dir.visitApply i r.descriptor k)) u := by
        rw [← hu]; split
        · exact PinPath.refl _
        · exact PinPath.tellLines _ _ _
      have nav : u.nav.shownKey = s.nav.shownKey := congrArg Navigation.shownKey path.nav
      split
      · rename_i same
        refine State.Releases.after ?_ (.keyReleased _ _)
        refine .visitApply visible key free path.dir path.load path.sweep fun h => ?_
        split
        · rename_i shown
          rw [nav, same, ← key]; exact h.2.2.2.2.1.2.1 i shown
        · exact nav
      · refine State.Releases.after ?_ (.keyMoved _ _ _ _)
        by_cases hs : s.dir.entries[i].state = .shown
        · rw [if_pos (beq_iff_eq.mpr hs)]
          exact .visitApply visible key free path.dir path.load path.sweep fun _ => (if_pos hs).symm
        · rw [if_neg (mt beq_iff_eq.mp hs)]
          exact .visitApply visible key free path.dir path.load path.sweep fun _ => nav.trans (if_neg hs).symm

/-- R93: a visit counts its entry at most once, and only that. -/
theorem State.visitHeld_counts (s : State) (r : SweepRun) (i : Fin 48) (k : Key) :
    (s.visitHeld r i k).2.matched = r.matched ∧ (s.visitHeld r i k).2.counted ≤ r.counted + 1 := by
  simp only [State.visitHeld, SweepRun.counted]
  split_ifs <;> exact ⟨rfl, by simp only; omega⟩

/-- R93: a visit, held or not, keeps the pages, and what it counts it has released. -/
theorem State.visitEntry_counts {s : State} (r : SweepRun) (i : Fin 48) (agree : s.PagesAgree) :
    s.PagesKept (s.visitEntry r i).1 ∧ (s.visitEntry r i).1.dir.entries[i].held = false ∧
      (s.visitEntry r i).2.matched = r.matched ∧
      (s.visitEntry r i).1.dir.heldEntries.length + (s.visitEntry r i).2.counted ≤
        s.dir.heldEntries.length + r.counted := by
  unfold State.visitEntry
  split
  · rename_i held
    have visible := (agree.2.2.2.2.2 i held).1
    split
    · rename_i k key
      have rel := State.visitHeld_releases r visible key
      have fewer := Directory.heldEntries_released rel.kept.held held rel.released
      obtain ⟨matched, counted⟩ := s.visitHeld_counts r i k
      exact ⟨rel.kept, rel.released, matched, by omega⟩
    · have rel := State.Releases.release visible
      exact ⟨rel.kept, rel.released, rfl, Nat.add_le_add_right (Directory.heldEntries_mono rel.kept.held) _⟩
  · rename_i held
    exact ⟨.refl s, by simpa using held, rfl, Nat.le_refl _⟩

theorem State.visitEntry_progress (s : State) (r : SweepRun) (i : Fin 48) :
    (s.visitEntry r i).2.progress = r.progress := by
  simp only [State.visitEntry]
  split
  · split
    · simp only [State.visitHeld]
      split_ifs <;> rfl
    · rfl
  · rfl

/-- R8, R87: with the entry at the progress visited, the HELD entries lie after it. -/
theorem State.PagesAgree.held_after {s : State} {r : SweepRun} (h : s.PagesAgree) (running : s.sweep = some r)
    (visited : s.dir.entries[r.progress].held = false) (i : Fin 48) (held : s.dir.entries[i].held = true) :
    s.dir.entries[i].visible = true ∧ r.progress.val + 1 ≤ i.val := by
  obtain ⟨visible, p, hp, le⟩ := h.2.2.2.2.2 i held
  rw [running] at hp
  obtain rfl : _ = p := by simpa using hp
  refine ⟨visible, lt_of_le_of_ne le fun same => ?_⟩
  obtain rfl : r.progress = i := Fin.ext same
  rw [visited] at held
  cases held

/-- The HELD flags and the sweep agree where another sweep takes the engine over. -/
theorem State.PagesAgree.setSweep {s : State} (h : s.PagesAgree) (r : Option SweepRun)
    (held : ∀ i : Fin 48, s.dir.entries[i].held = true →
      s.dir.entries[i].visible = true ∧ ∃ p ∈ r.map SweepRun.progress, p.val ≤ i.val) : (s.setSweep r).PagesAgree :=
  ⟨h.1, h.2.1, h.2.2.1, h.2.2.2.1, h.2.2.2.2.1, held⟩

/-- R87: the progress goes on, or the pass ends. -/
theorem State.PagesAgree.sweepAdvance {s : State} {q r : SweepRun} (h : s.PagesAgree) (running : s.sweep = some q)
    (same : r.progress = q.progress) (visited : s.dir.entries[q.progress].held = false) : (s.sweepAdvance r).PagesAgree := by
  have after := h.held_after running visited
  rw [← same] at after
  unfold State.sweepAdvance
  split
  · exact h.setSweep _ fun i hi => ⟨(after i hi).1, _, rfl, (after i hi).2⟩
  · refine ((State.PagesKept.post s _).agree h).setSweep _ fun i hi => ?_
    have := (after i ((State.PagesKept.post s _).held i hi)).2
    omega

/-- R87, R93: the visit of the entry at the engine's progress, and the step to the next. -/
theorem State.PagesStep.sweepVisit {s : State} {r : SweepRun} (running : s.sweep = some r) :
    s.PagesStep ((s.visitEntry r r.progress).1.sweepAdvance (s.visitEntry r r.progress).2) := by
  have same := s.visitEntry_progress r r.progress
  refine ⟨fun h => ?_, fun h c q hq => ?_⟩
  · obtain ⟨kept, released, -, -⟩ := State.visitEntry_counts r r.progress h
    exact (kept.agree h).sweepAdvance (kept.sweep.trans running) same released
  · obtain ⟨-, -, matched, counted⟩ := State.visitEntry_counts r r.progress h
    obtain ⟨sum, bound⟩ := c r running
    unfold State.sweepAdvance at hq ⊢
    split at hq
    · obtain rfl : _ = q := by simpa using hq
      rename_i hp
      rw [dif_pos hp]
      simp only [SweepRun.counted] at counted
      simp only [State.setSweep_dir]
      omega
    · cases hq

theorem State.FramesStep.sweepVisit {s : State} {r : SweepRun} :
    s.FramesStep ((s.visitEntry r r.progress).1.sweepAdvance (s.visitEntry r r.progress).2) := by
  intro h _ _ i o _ _ _
  have kept := (State.visitEntry_counts r r.progress h).1
  have advanced : ((s.visitEntry r r.progress).1.sweepAdvance (s.visitEntry r r.progress).2).dir =
      (s.visitEntry r r.progress).1.dir := by
    unfold State.sweepAdvance
    split
    · rfl
    · simp
  rw [advanced, Directory.frameByte, Directory.frameByte, kept.frames]

end Sys2Proof.Machine
end

section
/-! SUPPORT. The resets, and every row at once: what a step keeps of the pages, the sweep's counts and the frames. -/

namespace Sys2Proof.Machine

/-- What a row that writes no visible entry's frame keeps (R4, R93). -/
def State.Advances (s t : State) : Prop := s.PagesStep t ∧ s.FramesStep t

theorem State.PagesKept.advances {s t : State} (h : s.PagesKept t) : s.Advances t :=
  ⟨h.entries.step, .of_frames h.frames⟩

theorem State.Advances.refl (s : State) : s.Advances s := (State.PagesKept.refl s).advances

theorem Reply.Answers.advances {s : State} {a : State × Reply} (h : Reply.Answers s s.PagesKept a) : s.Advances a.1 :=
  h.kept.advances

/-! ### The resets (R189) -/

theorem Directory.afterReset_entry (i : Fin 48) : Directory.afterReset.entries[i] = Entry.free := by
  simp [Directory.afterReset]

theorem Decoder.afterReset_slot (i : Fin 2) : Decoder.afterReset.slots[i] = none := by simp [Decoder.afterReset]

/-- R21, R48, R81: with every entry FREE, every slot IDLE and no page shown the pages agree. -/
theorem State.PagesAgree.afterReset {s : State} (dir : s.dir = Directory.afterReset) (load : s.load = Decoder.afterReset)
    (nav : s.nav = Navigation.afterReset) : s.PagesAgree := by
  have free : ∀ i : Fin 48, s.dir.entries[i] = Entry.free := fun i => by rw [dir]; exact Directory.afterReset_entry i
  have idle : ∀ i : Fin 2, s.load.slots[i] = none := fun i => by rw [load]; exact Decoder.afterReset_slot i
  have queue : s.dir.queue = [] := by rw [dir]; rfl
  have shown : s.nav.shownKey = none := by rw [nav]; rfl
  refine ⟨fun i => ?_, ⟨fun i r hr => ?_, fun i hi => ?_, fun r hr => ?_⟩, fun i j hi => ?_, ⟨?_, fun i => ?_⟩,
    ⟨fun i j hi => ?_, fun i hi => ?_, fun hk => ?_⟩, .none fun i => by rw [free]; rfl⟩
  · rw [free]; decide
  · rw [idle] at hr; cases hr
  · rw [free] at hi; cases hi
  · have := idle 0
    rw [show s.load.slots[(0 : Fin 2)] = some r from hr] at this
    cases this
  · rw [free] at hi; cases hi
  · rw [queue]; exact List.nodup_nil
  · rw [queue, free]; simp [Entry.free]
  · rw [free] at hi; cases hi
  · rw [free] at hi; cases hi
  · exact absurd shown hk

/-- Whatever was before a reset. -/
theorem State.resetBlocks_advances (s u : State) (kind : ResetKind) : s.Advances (u.resetBlocks kind) :=
  ⟨⟨fun _ => .afterReset rfl rfl rfl, fun _ _ r hr => by cases hr⟩, fun _ _ _ i _ _ _ hi => by
    change Directory.afterReset.entries[i].visible = true at hi
    rw [Directory.afterReset_entry] at hi
    cases hi⟩

/-! ### Taking a command -/

theorem State.Advances.setLink {s t : State} (h : s.Advances t) (l : Link) : s.Advances (t.setLink l) :=
  ⟨h.1.after (State.PagesKept.setLink t l).entries, h.2.after rfl⟩

theorem State.take_advances {s t : State} {code : Byte} {b : CommandBody} {owner : List Byte → State → State × Reply}
    (h : ∀ p, s.Advances (owner p s).1) (taken : s.take code b owner = .next t) : s.Advances t := by
  rcases State.take_cases owner taken with ⟨-, -, rfl⟩ | ⟨-, -, rfl⟩ | ⟨-, rfl⟩
  · exact (h b.payload).setLink _
  · exact (State.Advances.refl s).setLink _
  · exact .refl t

theorem State.take_pagesStep {s t : State} {code : Byte} {b : CommandBody} {owner : List Byte → State → State × Reply}
    (h : ∀ p, s.PagesStep (owner p s).1) (taken : s.take code b owner = .next t) : s.PagesStep t := by
  rcases State.take_cases owner taken with ⟨-, -, rfl⟩ | ⟨-, -, rfl⟩ | ⟨-, rfl⟩
  · exact (h b.payload).after (State.PagesKept.setLink _ _).entries
  · exact (State.Advances.refl s).1.after (State.PagesKept.setLink _ _).entries
  · exact (State.Advances.refl t).1

theorem Reply.Answers.state {s : State} {P : State → Prop} {a : State × Reply} (h : Reply.Answers s P a) (refl : P s) : P a.1 := by
  rcases h with h | ⟨-, h⟩
  · rw [h]; exact refl
  · exact h

theorem patchCells_pagesStep {s t : State} {b : CommandBody} (h : execPatchCells b s = .next t) : s.PagesStep t :=
  State.take_pagesStep (fun p => ((patchCellsRule_answers p s).state (State.PagesKept.refl s).entries).step) h

/-! ### The other events -/

theorem execWriteCommand_kept {s t : State} {shown : Byte} {bytes : List Byte}
    (h : execWriteCommand shown bytes s = .next t) : s.PagesKept t := by
  unfold execWriteCommand at h
  simp only at h
  split_ifs at h
  · cases h; exact .setLink _ _
  · cases h; exact .refl _
  · cases h; exact .setLink _ _
  · split at h
    · cases h; exact .trans (.setLink _ _) (.setLink _ _)
    · cases h; exact .setLink _ _

theorem execReadResponse_kept {s t : State} {n : Nat} (h : execReadResponse n s = .next t) : s.PagesKept t := by
  unfold execReadResponse at h
  split_ifs at h <;> cases h <;> exact .setLink _ _

theorem execReadNotice_kept {s t : State} {n : Nat} (h : execReadNotice n s = .next t) : s.PagesKept t := by
  unfold execReadNotice at h
  split_ifs at h <;> cases h <;> exact .setLink _ _

theorem execStatusOnly_kept {s t : State} {code : Byte} {n : Nat} (h : execStatusOnlyTransaction code n s = .next t) :
    s.PagesKept t := by
  unfold execStatusOnlyTransaction at h
  split_ifs at h <;> cases h <;> exact .setLink _ _

theorem execUnknownCommand_kept {s t : State} {code : Byte} {b : CommandBody} (h : execUnknownCommand code b s = .next t) :
    s.PagesKept t := by
  unfold execUnknownCommand at h
  split_ifs at h <;> cases h
  · exact .setLink _ _
  · exact .refl _

theorem execKeySample_kept {s t : State} {prev next mark seek call : Bool}
    (h : execKeySample prev next mark seek call s = .next t) : s.PagesKept t := by
  unfold execKeySample at h
  split_ifs at h <;> cases h
  · exact .refl _
  · exact .sample _ _

theorem execTimeout_kept {s t : State} {slot : Fin 2} (h : execTimeout slot s = .next t) : s.PagesKept t := by
  unfold execTimeout at h
  split_ifs at h
  · cases h; exact .refl _
  · split at h <;> cases h
    · exact .refl _
    · exact .fatalStream (by assumption) _ _

theorem State.PagesKept.blinkChanged (s : State) : s.PagesKept s.blinkChanged := .recompose s s.blinkLines

theorem execBlink_kept {s t : State} (h : execBlinkTimerExpiry s = .next t) : s.PagesKept t := by
  unfold execBlinkTimerExpiry at h
  split_ifs at h <;> rw [← Host.Outcome.next.inj h]
  · exact .refl _
  · exact .trans (.setComp _ _) (.blinkChanged _)

theorem execZoneReading_kept {s t : State} {z : Fin 16} {n : BitVec 12} (h : execZoneReading z n s = .next t) :
    s.PagesKept t := by
  unfold execZoneReading at h
  split_ifs at h <;> cases h
  · exact .refl _
  · exact .zoneTakes _ _ _

theorem execHoldTimer_kept {s t : State} {z : Fin 16} (h : execHoldTimerExpiry z s = .next t) : s.PagesKept t := by
  unfold execHoldTimerExpiry at h
  simp only at h
  split_ifs at h <;> cases h
  · exact .refl _
  · exact .zoneTakes _ _ _

theorem execRefill_kept {s t : State} (h : execRefillUnitArrival s = .next t) : s.PagesKept t := by
  unfold execRefillUnitArrival at h
  split_ifs at h <;> cases h
  · exact .refl _
  · exact .trans (.setDrive _ _) (.startIfCharged _)

theorem execStrokeStart_kept {s t : State} (h : execStrokeStart s = .next t) : s.PagesKept t := by
  unfold execStrokeStart at h
  split_ifs at h <;> cases h
  · exact .refl _
  · exact .startIfCharged _

theorem execStrokeCompletion_kept {s t : State} {sensed : PinRow} (h : execStrokeCompletion sensed s = .next t) :
    s.PagesKept t := by
  unfold execStrokeCompletion at h
  split_ifs at h
  · cases h; exact .refl _
  · split at h <;> cases h
    · exact .trans (.takeResult _ _ _) (.trans (.setDrive _ _) (.strokeDone _))
    · exact .refl _

theorem State.PagesKept.resetPin (s : State) (level : Bool) : s.PagesKept { s with resetPin := level } :=
  .of_blocks rfl rfl rfl rfl

theorem State.PagesKept.supplyPin (s : State) (level : Supply) : s.PagesKept { s with supplyPin := level } :=
  .of_blocks rfl rfl rfl rfl

theorem execSupplyFall_kept {s t : State} (h : execSupplyFall s = .next t) : s.PagesKept t := by
  unfold execSupplyFall at h
  simp only at h
  split_ifs at h <;> cases h
  · exact .supplyPin _ _
  · exact .trans (.supplyPin _ _) (.supplyLost _)

theorem execSupplyRise_kept {s t : State} (h : execSupplyRise s = .next t) : s.PagesKept t := by
  unfold execSupplyRise at h
  simp only at h
  split_ifs at h <;> cases h
  · exact .supplyPin _ _
  · exact .trans (.supplyPin _ _) (.supplyBack _)

theorem execSweepVisit_advances {s t : State} (h : execSweepVisit s = .next t) : s.Advances t := by
  unfold execSweepVisit at h
  split_ifs at h
  · cases h; exact .refl _
  · split at h <;> cases h
    · exact .refl _
    · rename_i running
      exact ⟨.sweepVisit running, .sweepVisit⟩

/-! ### Every row -/

/-- Every row but PATCH CELLS. -/
theorem exec_advances {s t : State} {c : Instr} (notPatch : ∀ b, c ≠ .patchCells b) (h : exec c s = .next t) :
    s.Advances t := by
  have same : s.Advances s := .refl s
  cases c with
  | patchCells b => exact absurd rfl (notPatch b)
  | openLoad b => exact State.take_advances (fun p => (openLoadRule_answers p s).state same) h
  | data b =>
    refine State.take_advances (fun p => ?_) h
    rcases dataRule_answers p s with e | ⟨-, e⟩
    · rw [e]; exact same
    · exact e
  | sweep b => exact State.take_advances (fun p => (sweepRule_answers p s).state same) h
  | abortSweep b => exact State.take_advances (fun p => (abortSweepRule_answers p s).state same) h
  | commit b => exact State.take_advances (fun p => (commitRule_kept p s).advances) h
  | cancelLoad b => exact State.take_advances (fun p => (cancelLoadRule_answers p s).advances) h
  | setControlCodes b => exact State.take_advances (fun p => (setControlCodesRule_answers p s).advances) h
  | queryEntry b => exact State.take_advances (fun p => by rw [queryEntryRule_state]; exact same) h
  | listEntries b => exact State.take_advances (fun p => by rw [listEntriesRule_state]; exact same) h
  | readRow b => exact State.take_advances (fun p => by rw [readRowRule_state]; exact same) h
  | readFaults b => exact State.take_advances (fun p => same) h
  | readStatus b => exact State.take_advances (fun p => same) h
  | retire b => exact State.take_advances (fun p => (retireRule_answers p s).advances) h
  | setEntry b => exact State.take_advances (fun p => (setEntryRule_answers p s).advances) h
  | addMark b => exact State.take_advances (fun p => (addMarkRule_answers p s).advances) h
  | dropMarks b => exact State.take_advances (fun p => (dropMarksRule_answers p s).advances) h
  | showKey b => exact State.take_advances (fun p => (showRule_answers p s).advances) h
  | declineMiss b => exact State.take_advances (fun p => (declineMissRule_answers p s).advances) h
  | setNavigation b => exact State.take_advances (fun p => (setNavigationRule_answers p s).advances) h
  | setStatus b => exact State.take_advances (fun p => (setStatusRule_answers p s).advances) h
  | setGlyphs b => exact State.take_advances (fun p => (setGlyphsRule_answers p s).advances) h
  | setCalendar b => exact State.take_advances (fun p => (setCalendarRule_answers p s).advances) h
  | setDrive b => exact State.take_advances (fun p => (setDriveRule_answers p s).advances) h
  | pauseDrive b => exact State.take_advances (fun p => (pauseDriveRule_answers p s).advances) h
  | resumeDrive b => exact State.take_advances (fun p => (resumeDriveRule_answers p s).advances) h
  | survey b => exact State.take_advances (fun p => (surveyRule_answers p s).advances) h
  | clearFaults b => exact State.take_advances (fun p => (clearFaultsRule_answers p s).advances) h
  | setTouch b => exact State.take_advances (fun p => (setTouchRule_answers p s).advances) h
  | setNoticeMask b => exact State.take_advances (fun p => (setNoticeMaskRule_answers p s).advances) h
  | resetCommand b => exact State.take_advances (fun p => s.resetBlocks_advances s .command) h
  | powerOnReset => cases h; exact s.resetBlocks_advances s .powerOn
  | pinReset => cases h; exact s.resetBlocks_advances { s with resetPin := false } .pin
  | resetPinAsserted => cases h; exact (State.PagesKept.resetPin s true).advances
  | writeCommand shown bytes => exact (execWriteCommand_kept h).advances
  | readResponse clocked => exact (execReadResponse_kept h).advances
  | readNotice clocked => exact (execReadNotice_kept h).advances
  | statusOnlyTransaction code clocked => exact (execStatusOnly_kept h).advances
  | unknownCommand code b => exact (execUnknownCommand_kept h).advances
  | keySample prev next mark seek call => exact (execKeySample_kept h).advances
  | timeout slot => exact (execTimeout_kept h).advances
  | blinkTimerExpiry => exact (execBlink_kept h).advances
  | zoneReading zone count => exact (execZoneReading_kept h).advances
  | holdTimerExpiry zone => exact (execHoldTimer_kept h).advances
  | refillUnitArrival => exact (execRefill_kept h).advances
  | strokeStart => exact (execStrokeStart_kept h).advances
  | strokeCompletion sensed => exact (execStrokeCompletion_kept h).advances
  | supplyFall => exact (execSupplyFall_kept h).advances
  | supplyRise => exact (execSupplyRise_kept h).advances
  | sweepVisit => exact execSweepVisit_advances h

/-- R93: every row. -/
theorem exec_pagesStep {s t : State} {c : Instr} (h : exec c s = .next t) : s.PagesStep t := by
  by_cases patch : ∃ b, c = .patchCells b
  · obtain ⟨b, rfl⟩ := patch
    exact patchCells_pagesStep h
  · exact (exec_advances (fun b hb => patch ⟨b, hb⟩) h).1

end Sys2Proof.Machine

section
open Sys2Proof Sys2Proof.Machine

/-- Settles O53: by the row taken; a row that changes the pages keeps them in agreement, and a visit of the sweep counts only
an entry that it releases. -/
theorem stepKeepsThePages : Obligations.StepKeepsThePages := by
  intro s t agree h
  unfold step at h
  split at h
  · cases h
    exact ⟨agree, id⟩
  · have kept := exec_pagesStep h
    exact ⟨kept.agree agree, kept.counts agree⟩

/-- Settles O60: a row writes no frame, or only that of an entry that is not visible before or not after it. -/
theorem visibleFramesChangeOnlyByPatch : Obligations.VisibleFramesChangeOnlyByPatch := by
  intro s t c rest agree sound canonical pending notPatch h i o bound before after
  simp only [step, pending] at h
  exact (exec_advances notPatch h).2 agree sound canonical i o bound before after

end
end

section
/-! SUPPORT. The rule behind each code of the catalogue, and what its refusals change. -/

namespace Sys2Proof.Machine

/-- The answer `a` of a command that was given in `s`, where a refusal changes nothing; the failed stream of a DATA and the
conditions of a COMMIT apart (R13, R24, R39, R41, R85). -/
def Reply.RefusesWhole (code : Byte) (s : State) (a : State × Reply) : Prop :=
  a.1 = s ∨ a.2.status = .ok ∨ a.2.status = .accepted ∨ code = 0x12 ∨ (code = 0x11 ∧ a.2.status = .streamFault)

theorem Reply.Answers.refusesWhole {code : Byte} {s : State} {P : State → Prop} {a : State × Reply}
    (h : Reply.Answers s P a) : Reply.RefusesWhole code s a := by
  rcases h with h | ⟨h | h, -⟩
  · exact .inl h
  · exact .inr (.inl h)
  · exact .inr (.inr (.inl h))

theorem dataRule_refusesWhole (p : List Byte) (s : State) : Reply.RefusesWhole 0x11 s (dataRule p s) := by
  rcases dataRule_answers p s with h | ⟨h | h, -⟩
  · exact .inl h
  · exact .inr (.inl h)
  · exact .inr (.inr (.inr (.inr ⟨rfl, h⟩)))

theorem ite_some_cases {α : Type} {p : Prop} [Decidable p] {x y : α} {e : Option α}
    (h : (if p then some x else e) = some y) : (p ∧ x = y) ∨ e = some y := by
  split at h
  · exact .inl ⟨by assumption, Option.some.inj h⟩
  · exact .inr h

/-- R182, R185: the row of a buffered command takes it by the rule of one block, which refuses it whole. -/
theorem commandRow_owner {code : Byte} {b : CommandBody} {row : Instr} (h : commandRow code b = some row) :
    ∃ owner : List Byte → State → State × Reply, (∀ s, exec row s = s.take code b owner) ∧
      ∀ p s, Reply.RefusesWhole code s (owner p s) := by
  unfold commandRow at h
  rcases ite_some_cases h with ⟨rfl, rfl⟩ | h
  · exact ⟨openLoadRule, fun _ => rfl, fun p s => (openLoadRule_answers p s).refusesWhole⟩
  rcases ite_some_cases h with ⟨rfl, rfl⟩ | h
  · exact ⟨dataRule, fun _ => rfl, dataRule_refusesWhole⟩
  rcases ite_some_cases h with ⟨rfl, rfl⟩ | h
  · exact ⟨commitRule, fun _ => rfl, fun _ _ => .inr (.inr (.inr (.inl rfl)))⟩
  rcases ite_some_cases h with ⟨rfl, rfl⟩ | h
  · exact ⟨cancelLoadRule, fun _ => rfl, fun p s => (cancelLoadRule_answers p s).refusesWhole⟩
  rcases ite_some_cases h with ⟨rfl, rfl⟩ | h
  · exact ⟨setControlCodesRule, fun _ => rfl, fun p s => (setControlCodesRule_answers p s).refusesWhole⟩
  rcases ite_some_cases h with ⟨rfl, rfl⟩ | h
  · exact ⟨queryEntryRule, fun _ => rfl, fun p s => .inl (queryEntryRule_state p s)⟩
  rcases ite_some_cases h with ⟨rfl, rfl⟩ | h
  · exact ⟨listEntriesRule, fun _ => rfl, fun p s => .inl (listEntriesRule_state p s)⟩
  rcases ite_some_cases h with ⟨rfl, rfl⟩ | h
  · exact ⟨patchCellsRule, fun _ => rfl, fun p s => (patchCellsRule_answers p s).refusesWhole⟩
  rcases ite_some_cases h with ⟨rfl, rfl⟩ | h
  · exact ⟨retireRule, fun _ => rfl, fun p s => (retireRule_answers p s).refusesWhole⟩
  rcases ite_some_cases h with ⟨rfl, rfl⟩ | h
  · exact ⟨setEntryRule, fun _ => rfl, fun p s => (setEntryRule_answers p s).refusesWhole⟩
  rcases ite_some_cases h with ⟨rfl, rfl⟩ | h
  · exact ⟨addMarkRule, fun _ => rfl, fun p s => (addMarkRule_answers p s).refusesWhole⟩
  rcases ite_some_cases h with ⟨rfl, rfl⟩ | h
  · exact ⟨dropMarksRule, fun _ => rfl, fun p s => (dropMarksRule_answers p s).refusesWhole⟩
  rcases ite_some_cases h with ⟨rfl, rfl⟩ | h
  · exact ⟨sweepRule, fun _ => rfl, fun p s => (sweepRule_answers p s).refusesWhole⟩
  rcases ite_some_cases h with ⟨rfl, rfl⟩ | h
  · exact ⟨abortSweepRule, fun _ => rfl, fun p s => (abortSweepRule_answers p s).refusesWhole⟩
  rcases ite_some_cases h with ⟨rfl, rfl⟩ | h
  · exact ⟨showRule, fun _ => rfl, fun p s => (showRule_answers p s).refusesWhole⟩
  rcases ite_some_cases h with ⟨rfl, rfl⟩ | h
  · exact ⟨declineMissRule, fun _ => rfl, fun p s => (declineMissRule_answers p s).refusesWhole⟩
  rcases ite_some_cases h with ⟨rfl, rfl⟩ | h
  · exact ⟨setNavigationRule, fun _ => rfl, fun p s => (setNavigationRule_answers p s).refusesWhole⟩
  rcases ite_some_cases h with ⟨rfl, rfl⟩ | h
  · exact ⟨setStatusRule, fun _ => rfl, fun p s => (setStatusRule_answers p s).refusesWhole⟩
  rcases ite_some_cases h with ⟨rfl, rfl⟩ | h
  · exact ⟨setGlyphsRule, fun _ => rfl, fun p s => (setGlyphsRule_answers p s).refusesWhole⟩
  rcases ite_some_cases h with ⟨rfl, rfl⟩ | h
  · exact ⟨setCalendarRule, fun _ => rfl, fun p s => (setCalendarRule_answers p s).refusesWhole⟩
  rcases ite_some_cases h with ⟨rfl, rfl⟩ | h
  · exact ⟨setDriveRule, fun _ => rfl, fun p s => (setDriveRule_answers p s).refusesWhole⟩
  rcases ite_some_cases h with ⟨rfl, rfl⟩ | h
  · exact ⟨pauseDriveRule, fun _ => rfl, fun p s => (pauseDriveRule_answers p s).refusesWhole⟩
  rcases ite_some_cases h with ⟨rfl, rfl⟩ | h
  · exact ⟨resumeDriveRule, fun _ => rfl, fun p s => (resumeDriveRule_answers p s).refusesWhole⟩
  rcases ite_some_cases h with ⟨rfl, rfl⟩ | h
  · exact ⟨surveyRule, fun _ => rfl, fun p s => (surveyRule_answers p s).refusesWhole⟩
  rcases ite_some_cases h with ⟨rfl, rfl⟩ | h
  · exact ⟨readFaultsRule, fun _ => rfl, fun _ _ => .inl rfl⟩
  rcases ite_some_cases h with ⟨rfl, rfl⟩ | h
  · exact ⟨clearFaultsRule, fun _ => rfl, fun p s => (clearFaultsRule_answers p s).refusesWhole⟩
  rcases ite_some_cases h with ⟨rfl, rfl⟩ | h
  · exact ⟨readRowRule, fun _ => rfl, fun p s => .inl (readRowRule_state p s)⟩
  rcases ite_some_cases h with ⟨rfl, rfl⟩ | h
  · exact ⟨setTouchRule, fun _ => rfl, fun p s => (setTouchRule_answers p s).refusesWhole⟩
  rcases ite_some_cases h with ⟨rfl, rfl⟩ | h
  · exact ⟨setNoticeMaskRule, fun _ => rfl, fun p s => (setNoticeMaskRule_answers p s).refusesWhole⟩
  rcases ite_some_cases h with ⟨rfl, rfl⟩ | h
  · exact ⟨readStatusRule, fun _ => rfl, fun _ _ => .inl rfl⟩
  rcases ite_some_cases h with ⟨rfl, rfl⟩ | h
  · exact ⟨resetRule, fun _ => rfl, fun _ _ => .inr (.inl rfl)⟩
  cases h

end Sys2Proof.Machine

section
open Sys2Proof Sys2Proof.Machine

/-- Settles O5: a refused command reaches no state of its own, and a wrong length reaches no block. -/
theorem refusedCommandsChangeNothing : Obligations.RefusedCommandsChangeNothing := by
  intro s t code b row r hrow accepts h response notOk notAccepted notCommit notFault
  obtain ⟨owner, taking, refuses⟩ := commandRow_owner hrow
  rw [taking] at h
  rcases State.take_cases owner h with ⟨-, -, rfl⟩ | ⟨-, -, rfl⟩ | ⟨no, -⟩
  · obtain rfl := Option.some.inj response
    rcases refuses b.payload s with same | ok | accepted | commit | ⟨data, fault⟩
    · rw [State.respond_eq_answer, same]
    · exact absurd ok notOk
    · exact absurd accepted notAccepted
    · exact absurd commit notCommit
    · exact absurd fault (notFault data)
  · obtain rfl := Option.some.inj response
    rfl
  · rw [accepts.takes] at no
    cases no

end
end

section
/-! SUPPORT. What a lookup answers where the pages agree (R3, R7). -/

namespace Sys2Proof.Machine

/-- R22, R23: two slots that hold one key are one slot. -/
theorem State.SlotsMatch.slot_unique {s : State} (h : s.SlotsMatch) {i j : Fin 2} {r q : LoadSlot}
    (hi : s.load.slots[i] = some r) (hj : s.load.slots[j] = some q) (key : r.key = q.key) : i = j := by
  have apart := h.2.2
  by_contra hne
  have cases' : (i = 0 ∧ j = 1) ∨ (i = 1 ∧ j = 0) := by omega
  rcases cases' with ⟨rfl, rfl⟩ | ⟨rfl, rfl⟩
  · exact apart r hi q hj key
  · exact apart q hj r hi key.symm

/-- R2, R22: a LOADING entry is filled by a slot that names it and holds its key. -/
theorem State.SlotsMatch.filled {s : State} (h : s.SlotsMatch) {i : Fin 48} {k : Key}
    (loading : s.dir.entries[i].state = .loading) (key : s.dir.entries[i].key = some k) :
    ∃ (j : Fin 2) (r : LoadSlot), s.load.slots[j] = some r ∧ r.key = k ∧ s.dir.entries[i].slot = some j := by
  obtain ⟨j, hj⟩ := h.2.1 i loading
  obtain ⟨r, hr, he⟩ : ∃ r, s.load.slots[j] = some r ∧ r.entry = i := by simpa using hj
  obtain ⟨-, slot, holds, -⟩ := h.1 j r hr
  subst he
  exact ⟨j, r, hr, Option.some.inj (holds.symm.trans key), slot⟩

/-- R3, R22: a lookup that finds a key loading names the slot of its load. -/
theorem State.PagesAgree.lookup_loading {s : State} (h : s.PagesAgree) {k : Key} (j : Fin 2) :
    s.dir.lookup k = .loading (some j) ↔
      s.dir.visibleEntry k = none ∧ ∃ r, s.load.slots[j] = some r ∧ r.key = k := by
  have slots := h.2.1
  rw [Directory.lookup_loading]
  refine and_congr_right fun _ => ⟨?_, ?_⟩
  · rintro ⟨i, hi, slot⟩
    obtain ⟨loading, key⟩ := Directory.loadingEntry_some hi
    obtain ⟨j', r, hr, hk, own⟩ := slots.filled loading key
    obtain rfl : j' = j := Option.some.inj (own.symm.trans slot)
    exact ⟨r, hr, hk⟩
  · rintro ⟨r, hr, hk⟩
    obtain ⟨loading, -, key, -⟩ := slots.1 j r hr
    rw [hk] at key
    cases hi : s.dir.loadingEntry k with
    | none => exact absurd key (Directory.loadingEntry_none.mp hi r.entry loading)
    | some i =>
      obtain ⟨loading', key'⟩ := Directory.loadingEntry_some hi
      obtain ⟨j', r', hr', hk', own⟩ := slots.filled loading' key'
      obtain rfl : j' = j := slots.slot_unique hr' hr (hk'.trans hk.symm)
      exact ⟨i, rfl, own⟩

/-- R22: a lookup that finds a key loading finds its slot. -/
theorem State.PagesAgree.lookup_ne_loading_none {s : State} (h : s.PagesAgree) (k : Key) : s.dir.lookup k ≠ .loading none := by
  intro hl
  obtain ⟨-, i, hi, slot⟩ := Directory.lookup_loading.mp hl
  obtain ⟨loading, key⟩ := Directory.loadingEntry_some hi
  obtain ⟨j, r, -, -, own⟩ := h.2.1.filled loading key
  rw [slot] at own
  cases own

/-- R3: the visible entry of a key is the one that is visible and holds it. -/
theorem Directory.KeysUnique.visibleEntry_iff {d : Directory} (h : d.KeysUnique) (k : Key) (i : Fin 48) :
    d.visibleEntry k = some i ↔ (d.entries[i].state = .ready ∨ d.entries[i].state = .shown) ∧ d.entries[i].key = some k := by
  unfold Directory.visibleEntry
  rw [find_finRange_unique, ← Entry.visible_iff]
  · simp
  · intro a b ha hb
    simp only [Bool.and_eq_true, beq_iff_eq] at ha hb
    exact h a b ha.1 hb.1 (ha.2.trans hb.2.symm)

end Sys2Proof.Machine

section
open Sys2Proof Sys2Proof.Machine

/-- Settles O9, by the definition of a lookup, with at most one entry for each search to find. -/
theorem lookupNamesTheEntry : Obligations.LookupNamesTheEntry := by
  intro s k h
  refine ⟨Directory.shownEntry_iff h.2.2.2.2.1.1, h.2.2.1.visibleEntry_iff k, fun i => Directory.lookup_visible,
    fun i => Directory.lookup_held, h.lookup_loading, h.lookup_ne_loading_none k, Directory.lookup_absent⟩

end
end

section
/-! SUPPORT. The commands on a key, from their payload to the check of the entry (R13, R18 to R20, R52, R54). -/

namespace Sys2Proof.Machine

/-- What both branches give. -/
theorem of_ite_eq_true {p q : Prop} [Decidable p] {a b : Bool} (ha : a = true → q) (hb : b = true → q) :
    (if p then a else b) = true → q := by
  split
  · exact ha
  · exact hb

/-- R185: no length of the catalogue exceeds 300. -/
theorem length_le_of_lengthAllowed {code : Byte} {n : Nat} : lengthAllowed code n = true → n ≤ 300 := by
  unfold lengthAllowed
  iterate 24
    refine of_ite_eq_true (fun h => ?_) ?_
    · simp only [Bool.and_eq_true, Bool.or_eq_true, decide_eq_true_eq, beq_iff_eq] at h
      omega
  exact Bool.noConfusion

/-- R181 to R183: an accepted frame with a length of the catalogue is answered by its rule. -/
theorem State.take_frameOf {s t : State} {code tag : Byte} {payload : List Byte} {r : Reply}
    {owner : List Byte → State → State × Reply} (accepts : s.Accepts code (frameOf tag payload))
    (allowed : lengthAllowed code payload.length = true) (h : owner payload s = (t, r)) :
    s.take code (frameOf tag payload) owner = .next (t.answer code tag r.status r.payload) := by
  rw [State.take_good owner accepts (lengthGood_frameOf (length_le_of_lengthAllowed allowed) allowed)]
  change Host.Outcome.next ((owner payload s).1.respond code tag (owner payload s).2) = _
  rw [h]
  rfl

/-- R181 to R183: so is a frame that its rule refuses. -/
theorem State.exec_refused {s : State} {code tag : Byte} {payload : List Byte} {row : Instr} {r : Reply}
    {owner : List Byte → State → State × Reply} (taking : exec row s = s.take code (frameOf tag payload) owner)
    (accepts : s.Accepts code (frameOf tag payload)) (allowed : lengthAllowed code payload.length = true)
    (h : owner payload s = (s, r)) : exec row s = .next (s.answer code tag r.status r.payload) :=
  taking.trans (State.take_frameOf accepts allowed h)

/-! ### The check of an entry (R13) -/

section
variable {s : State} {k : Key} {kinds : Kind → Bool} {states : EntryState → Bool} {c : Condition} {v : Fin 48}

theorem State.checkEntry_notFound (h : s.dir.visibleEntry k = none) :
    s.checkEntry k kinds states c = .error (.bare .notFound) := by
  simp only [State.checkEntry, h]

theorem State.checkEntry_badKind (h : s.dir.visibleEntry k = some v) (kind : kinds s.dir.entries[v].kind = false) :
    s.checkEntry k kinds states c = .error (.bare .badArgument) := by
  simp only [State.checkEntry, h, kind]
  rfl

theorem State.checkEntry_held (h : s.dir.visibleEntry k = some v) (kind : kinds s.dir.entries[v].kind = true)
    (held : s.dir.entries[v].held = true) :
    s.checkEntry k kinds states c = .error (.withRevision .held s.dir.entries[v].revision) := by
  simp only [State.checkEntry, h, kind, held]
  rfl

theorem State.checkEntry_badState (h : s.dir.visibleEntry k = some v) (kind : kinds s.dir.entries[v].kind = true)
    (held : s.dir.entries[v].held = false) (state : states s.dir.entries[v].state = false) :
    s.checkEntry k kinds states c = .error (.withRevision .shownEntry s.dir.entries[v].revision) := by
  simp only [State.checkEntry, h, kind, held, state]
  rfl

theorem State.checkEntry_stale (h : s.dir.visibleEntry k = some v) (kind : kinds s.dir.entries[v].kind = true)
    (held : s.dir.entries[v].held = false) (state : states s.dir.entries[v].state = true)
    (cond : c.holds s.dir.entries[v].revision = false) :
    s.checkEntry k kinds states c = .error (.withRevision .stale s.dir.entries[v].revision) := by
  simp only [State.checkEntry, h, kind, held, state, cond]
  rfl

theorem State.checkEntry_passes (h : s.dir.visibleEntry k = some v) (kind : kinds s.dir.entries[v].kind = true)
    (held : s.dir.entries[v].held = false) (state : states s.dir.entries[v].state = true)
    (cond : c.holds s.dir.entries[v].revision = true) : s.checkEntry k kinds states c = .ok v := by
  simp only [State.checkEntry, h, kind, held, state, cond]
  rfl

end

/-! ### The five rules, on the payloads of their commands -/

section
variable {s : State} {k : Key} {c : Condition} {x y : Byte}

/-- The payload of PATCH CELLS. -/
theorem patchCellsRule_eq {line : Fin 32} {first : Nat} {cells : List Byte} (ne : cells ≠ [])
    (fits : first + cells.length ≤ 40) :
    (∀ r, s.checkEntry k (· == .text) anySuits c = .error r →
      patchCellsRule (putKey k ++ c.bytes x y ++ [put8 line.val, put8 first] ++ cells) s = (s, r)) ∧
    ∀ i, s.checkEntry k (· == .text) anySuits c = .ok i →
      patchCellsRule (putKey k ++ c.bytes x y ++ [put8 line.val, put8 first] ++ cells) s =
        ((s.setDir (s.dir.patch i line first cells)).tellLines i [line], ⟨.ok, put16 (s.dir.entries[i].revision + 1)⟩) := by
  obtain ⟨code, lo, hi, bytes, read⟩ := c.read_bytes x y
  have one : 1 ≤ cells.length := List.length_pos_iff.mpr ne
  have small : (put8 first).toNat = first := by rw [put8_toNat]; omega
  have inLine : first < 40 ∧ 1 ≤ cells.length ∧ first + cells.length ≤ 40 := by omega
  rw [bytes]
  simp only [putKey, put16, List.cons_append, List.nil_append, patchCellsRule, readKey_putKey, read, readBelow_line,
    small, if_pos inLine]
  exact ⟨fun r h => by rw [h], fun i h => by rw [h]⟩

/-- The payload of RETIRE. -/
theorem retireRule_eq :
    (∀ r, s.checkEntry k anySuits (· == .ready) c = .error r → retireRule (putKey k ++ c.bytes x y) s = (s, r)) ∧
    ∀ i, s.checkEntry k anySuits (· == .ready) c = .ok i → retireRule (putKey k ++ c.bytes x y) s =
      (s.setDir (s.dir.freeEntry i), ⟨.ok, put8 i.val :: put16 s.dir.entries[i].revision⟩) := by
  obtain ⟨code, lo, hi, bytes, read⟩ := c.read_bytes x y
  rw [bytes]
  simp only [putKey, put16, List.cons_append, List.nil_append, retireRule, readKey_putKey, read]
  exact ⟨fun r h => by rw [h], fun i h => by rw [h]⟩

/-- The payload of SET ENTRY. -/
theorem setEntryRule_eq {pinned : Bool} {group : BitVec 4} :
    (∀ r, s.checkEntry k anySuits anySuits .unconditional = .error r →
      setEntryRule (putKey k ++ [putBool pinned, group.setWidth 8]) s = (s, r)) ∧
    ∀ i, s.checkEntry k anySuits anySuits .unconditional = .ok i →
      setEntryRule (putKey k ++ [putBool pinned, group.setWidth 8]) s =
        (s.setDir (s.dir.assign i pinned group), ⟨.ok, put16 s.dir.entries[i].revision⟩) := by
  simp only [putKey, put16, List.cons_append, List.nil_append, setEntryRule, readKey_putKey, readBool_putBool,
    readNibble_setWidth]
  exact ⟨fun r h => by rw [h], fun i h => by rw [h]⟩

/-- The payload of ADD MARK. -/
theorem addMarkRule_error {cls : MarkClass} {line : Fin 32} {first length : Nat} (one : 1 ≤ length)
    (fits : first + length ≤ 40) {r : Reply} (h : s.checkEntry k anySuits anySuits c = .error r) :
    addMarkRule (putKey k ++ c.bytes x y ++ [put8 cls.code, put8 line.val, put8 first, put8 length]) s = (s, r) := by
  obtain ⟨code, lo, hi, bytes, read⟩ := c.read_bytes x y
  rw [bytes]
  simp only [putKey, put16, List.cons_append, List.nil_append, addMarkRule, readKey_putKey, read,
    readMark_bytes cls line first length one fits, h]

/-- The payload of DROP MARKS. -/
theorem dropMarksRule_error {classes : BitVec 4} {owners : BitVec 2} {line : Option (Fin 32)} {r : Reply}
    (h : s.checkEntry k anySuits anySuits c = .error r) :
    dropMarksRule (putKey k ++ c.bytes x y ++ [classes.setWidth 8, owners.setWidth 8, putIndexOr (line.map Fin.val)]) s =
      (s, r) := by
  obtain ⟨code, lo, hi, bytes, read⟩ := c.read_bytes x y
  rw [bytes]
  simp only [putKey, put16, List.cons_append, List.nil_append, dropMarksRule, readKey_putKey, read,
    readClassSet_setWidth, readOwnerSet_setWidth, readLineSelector_putIndexOr, h]

theorem Condition.bytes_length (c : Condition) (x y : Byte) : (c.bytes x y).length = 3 := by cases c <;> rfl

end

/-- R13: the kinds that a command's check lets through. -/
def suitsKind (code : Byte) (kind : Kind) : Bool := if code = 0x22 then kind == .text else true

/-- R13: the states that a command's check lets through. -/
def suitsState (code : Byte) (state : EntryState) : Bool := if code = 0x23 then state == .ready else true

/-- R13: each of the five commands is refused as the check of its entry says. -/
theorem EntryCommand.checked {code : Byte} {k : Key} {c : Condition} {payload : List Byte}
    (h : EntryCommand code k c payload) : ∃ owner : List Byte → State → State × Reply,
      (∀ (s : State) (b : CommandBody) (row : Instr), commandRow code b = some row → exec row s = s.take code b owner) ∧
      lengthAllowed code payload.length = true ∧
      ∀ (s : State) (r : Reply), s.checkEntry k (suitsKind code) (suitsState code) c = .error r →
        owner payload s = (s, r) := by
  cases h with
  | patch k c x y line first cells ne fits =>
    refine ⟨patchCellsRule, fun s b row hr => ?_, ?_, fun s r => (patchCellsRule_eq ne fits).1 r⟩
    · obtain rfl := Option.some.inj hr; rfl
    · have := List.length_pos_iff.mpr ne
      simp only [List.length_append, Condition.bytes_length, putKey, put16, List.length_cons, List.length_nil]
      simp [lengthAllowed]
      omega
  | retire k c x y =>
    refine ⟨retireRule, fun s b row hr => ?_, ?_, fun s r => retireRule_eq.1 r⟩
    · obtain rfl := Option.some.inj hr; rfl
    · simp [putKey, put16, Condition.bytes_length, lengthAllowed]
  | setEntry k pinned group =>
    refine ⟨setEntryRule, fun s b row hr => ?_, ?_, fun s r => setEntryRule_eq.1 r⟩
    · obtain rfl := Option.some.inj hr; rfl
    · simp [putKey, put16, lengthAllowed]
  | addMark k c x y cls line first length one fits =>
    refine ⟨addMarkRule, fun s b row hr => ?_, ?_, fun s r => addMarkRule_error one fits⟩
    · obtain rfl := Option.some.inj hr; rfl
    · simp [putKey, put16, Condition.bytes_length, lengthAllowed]
  | dropMarks k c x y classes owners line =>
    refine ⟨dropMarksRule, fun s b row hr => ?_, ?_, fun s r => dropMarksRule_error⟩
    · obtain rfl := Option.some.inj hr; rfl
    · simp [putKey, put16, Condition.bytes_length, lengthAllowed]

end Sys2Proof.Machine

section
open Sys2Proof Sys2Proof.Machine

/-- Settles O28: each refusal is that of the first check that fails. -/
theorem entryCommandsCheckInOrder : Obligations.EntryCommandsCheckInOrder := by
  rintro s _ tag code k c payload row rfl command hrow accepts
  obtain ⟨owner, taking, allowed, refuses⟩ := command.checked
  have answer : ∀ r, s.checkEntry k (suitsKind code) (suitsState code) c = .error r →
      exec row s = .next (s.answer code tag r.status r.payload) := fun r h =>
    State.exec_refused (taking s _ row hrow) accepts allowed (refuses s r h)
  refine ⟨fun h => answer _ (State.checkEntry_notFound h), fun v hv =>
    ⟨fun hc raw => answer _ (State.checkEntry_badKind hv ?_), fun notRaw => ?_⟩⟩
  · rw [raw, hc]; rfl
  have kind : suitsKind code s.dir.entries[v].kind = true := by
    unfold suitsKind
    split
    · rename_i hc
      cases hk : s.dir.entries[v].kind with
      | text => rfl
      | raw => exact absurd ⟨hc, hk⟩ notRaw
    · rfl
  refine ⟨fun held => answer _ (State.checkEntry_held hv kind held), fun held hc shown => ?_,
    fun r held notShown hcond differs => ?_⟩
  · exact answer _ (State.checkEntry_badState hv kind held (by rw [shown, hc]; rfl))
  · subst hcond
    refine answer _ (State.checkEntry_stale hv kind held ?_ (by simpa [Condition.holds] using differs))
    have visible := (Entry.visible_iff _).mp (Directory.visibleEntry_some hv).1
    unfold suitsState
    split
    · rename_i hc
      exact beq_iff_eq.mpr (visible.resolve_right fun shown => notShown ⟨hc, shown⟩)
    · rfl

end
end

section
/-! SUPPORT. PATCH CELLS, RETIRE, SET ENTRY and SHOW on an entry that their checks let through (R18 to R20, R72). -/

namespace Sys2Proof.Machine

/-- R18: every byte of every frame after cells of a line are written. -/
theorem Directory.patch_frameByte (d : Directory) (v j : Fin 48) (line : Fin 32) (first o : Nat) (cells : List Byte)
    (canonical : Memory.wf d.frames = true) (fits : first + cells.length ≤ 40) (ho : o < 1280) :
    (d.patch v line first cells).frameByte j o =
      if j = v ∧ 40 * line.val + first ≤ o ∧ o < 40 * line.val + first + cells.length then
        cells.getD (o - (40 * line.val + first)) 0
      else d.frameByte j o :=
  read_writeFrameRun cells d.frames v j _ o (by simp only [Config.cellsPerLine]; omega) ho canonical

/-- R18, R109: the Compositor composes lines of the SHOWN entry, and only of it. -/
theorem State.tellLines_shown {s : State} {i : Fin 48} (lines : List (Fin 32)) (h : s.dir.entries[i].state = .shown) :
    s.tellLines i lines = s.recompose lines := if_pos h

theorem State.tellLines_unshown {s : State} {i : Fin 48} (lines : List (Fin 32)) (h : s.dir.entries[i].state ≠ .shown) :
    s.tellLines i lines = s := if_neg h

theorem Directory.eq_of {d d' : Directory} (entries : d.entries = d'.entries) (frames : d.frames = d'.frames)
    (queue : d.queue = d'.queue) : d = d' := by
  cases d; cases d'
  simp_all

/-- R20: the queue after both fields were set, by whether the pinned value has changed. -/
theorem Directory.assign_queue {d : Directory} (h : d.QueueExact) (v : Fin 48) (pinned : Bool) (group : BitVec 4) :
    (d.assign v pinned group).queue =
      if d.entries[v].state = .ready ∧ d.entries[v].pinned ≠ pinned then
        (if pinned then d.queue.filter (· ≠ v) else d.queue ++ [v])
      else d.queue := by
  have state : (d.setEntry v { d.entries[v] with group := group }).entries[v].state = d.entries[v].state := by
    rw [Directory.setEntry_entry, if_pos rfl]
  have mem := h.2 v
  rw [Directory.assign, Directory.setPinned_queue, state, Directory.setEntry_queue]
  cases pinned with
  | true =>
    rw [if_pos rfl]
    split
    · rw [if_pos rfl]
    · rename_i hn
      have out : v ∉ d.queue := fun hq => hn ⟨(mem.mp hq).1, by rw [(mem.mp hq).2]; simp⟩
      exact List.filter_eq_self.mpr fun a ha => decide_eq_true (by rintro rfl; exact out ha)
  | false =>
    have changed : d.entries[v].state = .ready ∧ v ∉ d.queue ↔
        d.entries[v].state = .ready ∧ d.entries[v].pinned ≠ false := by
      rw [mem]
      exact and_congr_right fun hr => not_congr ⟨And.right, fun hp => ⟨hr, hp⟩⟩
    simp only [Bool.false_eq_true, if_false, changed]

/-- R20: the directory after SET ENTRY. -/
theorem Directory.assign_eq {d : Directory} (h : d.QueueExact) (v : Fin 48) (pinned : Bool) (group : BitVec 4) :
    d.assign v pinned group = { d with
      entries := d.entries.set v { d.entries[v] with pinned := pinned, group := group }
      queue :=
        if d.entries[v].state = .ready ∧ d.entries[v].pinned ≠ pinned then
          (if pinned then d.queue.filter (· ≠ v) else d.queue ++ [v])
        else d.queue } := by
  refine Directory.eq_of (Vector.ext fun j hj => ?_) ?_ (Directory.assign_queue h v pinned group)
  · exact (Directory.assign_entry d v ⟨j, hj⟩ pinned group).trans (getElem_set_fin _ _ ⟨j, hj⟩ _).symm
  · simp [Directory.assign]

/-! ### SHOW -/

/-- The payload of SHOW. -/
theorem showRule_absent {s : State} {k : Key} (h : s.dir.lookup k = .absent) :
    showRule (putKey k) s = (s, .bare .notFound) := by
  simp only [putKey, put16, showRule, readKey_putKey, h, if_true]

/-- R72: the state in which SHOW has set the wanted key. -/
def State.wants (s : State) (k : Key) : State :=
  { s with nav := { s.nav with document := k.doc, wanted := some k.page } }

theorem showRule_present {s : State} {k : Key} (h : s.dir.lookup k ≠ .absent) :
    showRule (putKey k) s = ((s.wants k).evaluate .command, ⟨.ok, ((s.wants k).evaluate .command).nav.cond.code ::
      putKeyOr ((s.wants k).evaluate .command).link.served placeShownKey
        ((s.wants k).evaluate .command).nav.shownKey⟩) := by
  simp only [putKey, put16, showRule, readKey_putKey, if_neg h]
  rfl

/-- R184: the code of a condition. -/
theorem NavCondition.code_eq (c : NavCondition) : c.code =
    if c = .settled then 0 else if c = .waitMiss then 1 else if c = .waitLoad then 2 else 3 := by
  cases c <;> rfl

/-- R7: the entries other than the one shown. -/
theorem Directory.showEntry_other {d : Directory} {i : Fin 48} (hi : d.entries[i].state = .ready)
    (one : ∀ j k : Fin 48, d.entries[j].state = .shown → d.entries[k].state = .shown → j = k) {j : Fin 48} (hj : j ≠ i) :
    (d.showEntry i).entries[j] =
      if d.entries[j].state = .shown then { d.entries[j] with state := .ready } else d.entries[j] := by
  rw [Directory.showEntry_entry (by rw [hi]; simp), if_neg hj]
  simp only [Directory.shownEntry_iff one]

/-- R10: the entry that was SHOWN joins the tail of the queue unless it is pinned. -/
theorem Directory.showEntry_swap_queue {d : Directory} {i j : Fin 48} (hi : d.entries[i].state = .ready)
    (queued : d.QueueExact) (one : ∀ j k : Fin 48, d.entries[j].state = .shown → d.entries[k].state = .shown → j = k)
    (hj : d.entries[j].state = .shown) :
    (d.showEntry i).queue = d.queue.filter (· ≠ i) ++ (if d.entries[j].pinned then [] else [j]) := by
  have hji : j ≠ i := by rintro rfl; rw [hi] at hj; cases hj
  have out : j ∉ d.queue.filter (· ≠ i) := fun hq => by
    have := (queued.2 j).mp (List.mem_of_mem_filter hq)
    rw [hj] at this
    cases this.1
  rw [Directory.showEntry_swap ((Directory.shownEntry_iff one j).mpr hj) hji, Directory.joinQueue_queue,
    Directory.setEntry_entry, if_pos rfl, Directory.setEntry_queue, Directory.leaveQueue_queue, Directory.setEntry_queue]
  cases hp : d.entries[j].pinned with
  | true => simp
  | false => rw [if_pos ⟨rfl, rfl, out⟩]; rfl

end Sys2Proof.Machine

section
open Sys2Proof Sys2Proof.Machine

/-- Settles O29: the cells are written as a run of bytes, and the Compositor is told of the line. -/
theorem patchCellsWritesTheLine : Obligations.PatchCellsWritesTheLine := by
  rintro s _ tag x y k c line first cells v rfl accepts canonical ne fits hv text held holds
  have passes : s.checkEntry k (· == .text) anySuits c = .ok v :=
    State.checkEntry_passes hv (by rw [text]; rfl) held rfl holds
  have own : (s.dir.patch v line first cells).entries[v].state = s.dir.entries[v].state := by
    change (s.dir.setEntry v { s.dir.entries[v] with revision := s.dir.entries[v].revision + 1 }).entries[v].state = _
    rw [Directory.setEntry_entry, if_pos rfl]
  refine ⟨s.setDir (s.dir.patch v line first cells), (s.setDir (s.dir.patch v line first cells)).tellLines v [line], rfl,
    fun j o ho => Directory.patch_frameByte _ _ _ _ _ _ _ canonical fits ho, PinPath.tellLines _ _ _, fun hs => ?_,
    fun hs => ?_, ?_⟩
  · exact State.tellLines_unshown _ (by rw [State.setDir_dir, own]; exact hs)
  · have told := State.tellLines_shown (s := s.setDir (s.dir.patch v line first cells)) [line] (own.trans hs)
    rw [told]
    exact ⟨rfl, fun r hr => State.recompose_composed _ _ _ (by rw [hr]; exact List.mem_singleton_self _)⟩
  · refine State.take_frameOf accepts ?_ ((patchCellsRule_eq ne fits).2 v passes)
    obtain ⟨-, -, allowed, -⟩ := (EntryCommand.patch k c x y line first cells ne fits).checked
    exact allowed

/-- Settles O30: RETIRE frees the entry and takes it out of the queue; SET ENTRY sets both fields, and the queue is exact. -/
theorem retireAndSetEntry : Obligations.RetireAndSetEntry := by
  intro s b tag x y k c v hv held
  refine ⟨?_, ?_⟩
  · rintro rfl accepts ready holds
    obtain ⟨-, -, allowed, -⟩ := (EntryCommand.retire k c x y).checked
    exact State.take_frameOf accepts allowed (retireRule_eq.2 v
      (State.checkEntry_passes hv rfl held (by rw [ready]; rfl) holds))
  · rintro pinned group rfl accepts agree
    obtain ⟨-, -, allowed, -⟩ := (EntryCommand.setEntry k pinned group).checked
    have rule := (setEntryRule_eq (pinned := pinned) (group := group)).2 v
      (State.checkEntry_passes (c := .unconditional) hv rfl held rfl rfl)
    rw [Directory.assign_eq agree.2.2.2.1] at rule
    exact State.take_frameOf accepts allowed rule

/-- Settles O36: SHOW sets the wanted key and evaluates it; an evaluation that finds the entry visible shows it. -/
theorem showEvaluatesItsKey : Obligations.ShowEvaluatesItsKey := by
  refine ⟨?_, fun d i ready queued one => ⟨?_, fun j hj => Directory.showEntry_other ready one hj,
    Directory.showEntry_frames d i, fun none => ?_, fun j hj => Directory.showEntry_swap_queue ready queued one hj⟩⟩
  · rintro s _ tag k rfl accepts
    have allowed : lengthAllowed 0x38 (putKey k).length = true := rfl
    have answers := fun present => State.take_frameOf accepts allowed (showRule_present (s := s) (k := k) present)
    refine ⟨fun absent => ?_, fun i hi hk => ?_, fun v hv held => ?_⟩
    · exact State.take_frameOf accepts allowed (showRule_absent (Directory.lookup_absent.mpr absent))
    · refine ⟨(s.wants k).evaluate .command, putKeyOr ((s.wants k).evaluate .command).link.served placeShownKey
        ((s.wants k).evaluate .command).nav.shownKey, (s.wants k).evaluate_evaluates .command, fun x hx => ?_,
        fun hx => ?_, ?_⟩
      · rw [Option.mem_def.mp hx]; rfl
      · rw [hx]; exact ⟨rfl, rfl⟩
      · rw [← NavCondition.code_eq]
        exact answers fun absent => Directory.lookup_absent.mp absent i hi hk
    · obtain ⟨u, evaluated, path, composed, -, -⟩ := (s.wants k).evaluate_evaluates .command k rfl
      obtain rfl := evaluated.visible v hv held
      refine ⟨{ s with
        dir := if s.dir.entries[v].state = .shown then s.dir else s.dir.showEntry v
        nav := { s.nav with document := k.doc, wanted := some k.page, shownKey := some k, cond := .settled } },
        (s.wants k).evaluate .command, rfl, fun hs => if_pos hs, fun hr => ?_, path, ?_⟩
      · have notShown : s.dir.entries[v].state ≠ .shown := by rw [hr]; simp
        refine ⟨if_neg notShown, composed ?_⟩
        rw [State.post_dir]
        change (if s.dir.entries[v].state = .shown then s.dir else s.dir.showEntry v) ≠ s.dir
        rw [if_neg notShown]
        exact Directory.showEntry_ne notShown
      · have nav := path.nav
        rw [State.post_nav] at nav
        have := answers fun absent => by
          rw [Directory.lookup_visible.mpr ⟨hv, held⟩] at absent; cases absent
        rw [nav] at this
        exact this
  · rw [Directory.showEntry_entry (by rw [ready]; simp), if_pos rfl]
  · rw [Directory.showEntry_first (Directory.shownEntry_none.mpr none)]; rfl

end
end

section
/-! SUPPORT. What the readers of the operands let through, and so which bytes a rule refuses (R13 to R15, R27, R41, R46, R52,
R54, R84, R85). -/

namespace Sys2Proof.Machine

/-! ### What each reader lets through -/

theorem word16_toNat (lo hi : Byte) : (word16 lo hi).toNat = lo.toNat + 256 * hi.toNat := by
  have := lo.isLt
  rw [word16, BitVec.toNat_append, ← Nat.shiftLeft_add_eq_or_of_lt (by omega), Nat.shiftLeft_eq]
  omega

theorem readBool_some {v : Byte} {b : Bool} (h : readBool v = some b) : v.toNat < 2 := by
  by_contra hv
  rw [readBool_none v (by omega)] at h
  cases h

theorem readNibble_some {v : Byte} {x : BitVec 4} (h : readNibble v = some x) : v.toNat < 16 := by
  by_contra hv
  rw [readNibble_none v (by omega)] at h
  cases h

theorem readBelow_some {n : Nat} {v : Byte} {i : Fin n} (h : readBelow n v = some i) : v.toNat = i.val := by
  unfold readBelow at h
  split at h
  · rw [← Option.some.inj h]
  · cases h

theorem readBelow_of_toNat {n : Nat} {v : Byte} {i : Fin n} (h : v.toNat = i.val) : readBelow n v = some i := by
  unfold readBelow
  rw [dif_pos (by omega)]
  exact congrArg some (Fin.ext h)

theorem readKey_some {d lo hi : Byte} {k : Key} (h : readKey d lo hi = some k) : d.toNat < 16 := by
  by_contra hv
  rw [readKey_none d lo hi (by omega)] at h
  cases h

theorem readCondition_some {c lo hi : Byte} {x : Condition} (h : readCondition c lo hi = some x) : c.toNat < 2 := by
  by_contra hv
  rw [readCondition_none c lo hi (by rintro rfl; simp at hv) (by rintro rfl; simp at hv)] at h
  cases h

theorem readCommitCondition_some {c lo hi : Byte} {x : CommitCondition} (h : readCommitCondition c lo hi = some x) :
    c.toNat ∈ [1, 2, 3] := by
  unfold readCommitCondition at h
  split_ifs at h with h1 h2 h3
  · subst h1; decide
  · subst h2; decide
  · subst h3; decide

theorem readClass_some {v : Byte} {c : MarkClass} (h : readClass v = some c) : v.toNat < 4 := by
  unfold readClass at h
  split_ifs at h with h0 h1 h2 h3
  · subst h0; decide
  · subst h1; decide
  · subst h2; decide
  · subst h3; decide

theorem readMark_some {cls line first length : Byte} {m : Mark} (h : readMark cls line first length = some m) :
    cls.toNat < 4 ∧ line.toNat < 32 ∧ first.toNat < 40 ∧ 1 ≤ length.toNat ∧ first.toNat + length.toNat ≤ 40 := by
  unfold readMark at h
  split at h
  · rename_i c l hc hl
    split at h
    · rename_i bounds
      have := readBelow_some hl
      exact ⟨readClass_some hc, by omega, bounds.1, bounds.2.1, bounds.2.2.2⟩
    · cases h
  · cases h

theorem readClassSet_some {v : Byte} {x : BitVec 4} (h : readClassSet v = some x) : v.toNat < 16 := by
  unfold readClassSet at h
  split at h
  · assumption
  · cases h

theorem readOwnerSet_some {v : Byte} {x : BitVec 2} (h : readOwnerSet v = some x) : v.toNat < 4 := by
  unfold readOwnerSet at h
  split at h
  · assumption
  · cases h

theorem readLineSelector_some {v : Byte} {x : Option (Fin 32)} (h : readLineSelector v = some x) :
    v.toNat < 32 ∨ v.toNat = 0xFF := by
  unfold readLineSelector at h
  split at h
  · rename_i hv; subst hv; exact .inr rfl
  · obtain ⟨l, hl, -⟩ := Option.map_eq_some_iff.mp h
    have := readBelow_some hl
    omega

/-- A number's bits, as quotients. -/
theorem getLsbD_iff (v : Byte) (i : Nat) : v.getLsbD i = true ↔ v.toNat / 2 ^ i % 2 = 1 := by
  rw [BitVec.getLsbD, Nat.testBit_eq_decide_div_mod_eq, decide_eq_true_eq]

/-- An operand that is read only if its action is present. -/
theorem bind_of_present {α β : Type} {p : Prop} [Decidable p] {x : Option α} {absent : α} {rest : α → Option β} {y : β}
    (h : (if p then x.bind rest else (some absent).bind rest) = some y) : ∃ a, (p → x = some a) ∧ rest a = some y := by
  split at h
  · obtain ⟨a, ha, hr⟩ := Option.bind_eq_some_iff.mp h
    exact ⟨a, fun _ => ha, hr⟩
  · exact ⟨absent, fun hp => absurd hp (by assumption), h⟩

/-- R84, R85: a sweep descriptor that is read is in range. -/
theorem readDescriptor_some {en doc f0 f1 l0 l1 m v0 v1 acts p g cs os d : Byte} {x : SweepDescriptor}
    (h : readDescriptor [en, doc, f0, f1, l0, l1, m, v0, v1, acts, p, g, cs, os, d] = some x) :
    (en.toNat < 2 ∧ doc.toNat < 16 ∧ m.toNat < 16 ∧ v0.toNat < 16 ∧ v1.toNat < 16) ∧
      f0.toNat + 256 * f1.toNat ≤ l0.toNat + 256 * l1.toNat ∧
      (acts.toNat < 32 ∧ acts.toNat ≠ 0 ∧ (acts.toNat % 2 = 1 → acts.toNat = 1)) ∧
      (acts.toNat / 2 % 2 = 1 → p.toNat < 2) ∧ (acts.toNat / 4 % 2 = 1 → g.toNat < 16) ∧
      (acts.toNat / 8 % 2 = 1 → cs.toNat < 16 ∧ os.toNat < 4) ∧ (acts.toNat / 16 % 2 = 1 → d.toNat < 16) := by
  have bit := getLsbD_iff acts
  unfold readDescriptor at h
  obtain ⟨_, hen, h⟩ := Option.bind_eq_some_iff.mp h
  obtain ⟨_, hdoc, h⟩ := Option.bind_eq_some_iff.mp h
  obtain ⟨_, hm, h⟩ := Option.bind_eq_some_iff.mp h
  obtain ⟨_, hv0, h⟩ := Option.bind_eq_some_iff.mp h
  obtain ⟨_, hv1, h⟩ := Option.bind_eq_some_iff.mp h
  obtain ⟨_, hpin, h⟩ := bind_of_present h
  obtain ⟨_, hgroup, h⟩ := bind_of_present h
  obtain ⟨_, hclear, h⟩ := bind_of_present h
  obtain ⟨_, hmove, h⟩ := bind_of_present h
  split at h
  · rename_i good
    obtain ⟨small, ne, alone, order⟩ := good
    rw [word16_toNat, word16_toNat] at order
    refine ⟨⟨readBool_some hen, readNibble_some hdoc, readNibble_some hm, readNibble_some hv0, readNibble_some hv1⟩, order,
      ⟨small, fun h0 => ne (BitVec.eq_of_toNat_eq h0), fun h1 => ?_⟩, fun h1 => ?_, fun h1 => ?_, fun h1 => ?_, fun h1 => ?_⟩
    · rw [alone ((bit 0).mpr (by omega))]; rfl
    · obtain ⟨_, ha, -⟩ := Option.map_eq_some_iff.mp (hpin ((bit 1).mpr (by omega)))
      exact readBool_some ha
    · obtain ⟨_, ha, -⟩ := Option.map_eq_some_iff.mp (hgroup ((bit 2).mpr (by omega)))
      exact readNibble_some ha
    · have marks := hclear ((bit 3).mpr (by omega))
      split at marks
      · rename_i hcs hos
        exact ⟨readClassSet_some hcs, readOwnerSet_some hos⟩
      · cases marks
    · obtain ⟨_, ha, -⟩ := Option.map_eq_some_iff.mp (hmove ((bit 4).mpr (by omega)))
      exact readNibble_some ha
  · cases h

/-! ### The lengths that the catalogue allows where it allows more than one (R185) -/

theorem lengthAllowed_patchCells {n : Nat} (h : lengthAllowed 0x22 n = true) : 9 ≤ n :=
  of_decide_eq_true (Bool.and_eq_true_iff.mp h).1

theorem lengthAllowed_data {n : Nat} (h : lengthAllowed 0x11 n = true) : 2 ≤ n ∧ n ≤ 257 :=
  (Bool.and_eq_true_iff.mp h).imp of_decide_eq_true of_decide_eq_true

theorem lengthAllowed_commit {n : Nat} (h : lengthAllowed 0x12 n = true) : n = 1 ∨ n = 4 :=
  (Bool.or_eq_true_iff.mp h).imp beq_iff_eq.mp beq_iff_eq.mp

/-! ### Which bytes a rule refuses -/

section
variable {s : State} {p : List Byte}

theorem queryEntryRule_badArgument (len : p.length = 3) (h : 16 ≤ (p.getD 0 0).toNat) :
    queryEntryRule p s = (s, .bare .badArgument) := by
  match p, len with
  | [d, p0, p1], _ => simp only [queryEntryRule, readKey_none d p0 p1 h]

theorem showRule_badArgument (len : p.length = 3) (h : 16 ≤ (p.getD 0 0).toNat) :
    showRule p s = (s, .bare .badArgument) := by
  match p, len with
  | [d, p0, p1], _ => simp only [showRule, readKey_none d p0 p1 h]

theorem patchCellsRule_badArgument (len : 9 ≤ p.length)
    (h : 16 ≤ (p.getD 0 0).toNat ∨ 2 ≤ (p.getD 3 0).toNat ∨ 32 ≤ (p.getD 6 0).toNat ∨ 40 ≤ (p.getD 7 0).toNat ∨
      40 < (p.getD 7 0).toNat + (p.length - 8)) :
    patchCellsRule p s = (s, .bare .badArgument) := by
  match p, len with
  | d :: p0 :: p1 :: c :: r0 :: r1 :: ln :: first :: cells, _ =>
    simp only [List.getD_cons_zero, List.getD_cons_succ, List.length_cons] at h
    unfold patchCellsRule
    simp only
    split
    · rename_i hk hc hl
      have := readKey_some hk
      have := readCondition_some hc
      have := readBelow_some hl
      exact if_neg (by omega)
    · rfl

theorem retireRule_badArgument (len : p.length = 6) (h : 16 ≤ (p.getD 0 0).toNat ∨ 2 ≤ (p.getD 3 0).toNat) :
    retireRule p s = (s, .bare .badArgument) := by
  match p, len with
  | [d, p0, p1, c, r0, r1], _ =>
    simp only [List.getD_cons_zero, List.getD_cons_succ] at h
    unfold retireRule
    simp only
    split
    · rename_i hk hc
      have := readKey_some hk
      have := readCondition_some hc
      omega
    · rfl

theorem setEntryRule_badArgument (len : p.length = 5)
    (h : 16 ≤ (p.getD 0 0).toNat ∨ 2 ≤ (p.getD 3 0).toNat ∨ 16 ≤ (p.getD 4 0).toNat) :
    setEntryRule p s = (s, .bare .badArgument) := by
  match p, len with
  | [d, p0, p1, pin, grp], _ =>
    simp only [List.getD_cons_zero, List.getD_cons_succ] at h
    unfold setEntryRule
    simp only
    split
    · rename_i hk hp hg
      have := readKey_some hk
      have := readBool_some hp
      have := readNibble_some hg
      omega
    · rfl

theorem addMarkRule_badArgument (len : p.length = 10)
    (h : 16 ≤ (p.getD 0 0).toNat ∨ 2 ≤ (p.getD 3 0).toNat ∨ 4 ≤ (p.getD 6 0).toNat ∨ 32 ≤ (p.getD 7 0).toNat ∨
      40 ≤ (p.getD 8 0).toNat ∨ (p.getD 9 0).toNat = 0 ∨ 40 < (p.getD 8 0).toNat + (p.getD 9 0).toNat) :
    addMarkRule p s = (s, .bare .badArgument) := by
  match p, len with
  | [d, p0, p1, c, r0, r1, cls, ln, first, len], _ =>
    simp only [List.getD_cons_zero, List.getD_cons_succ] at h
    unfold addMarkRule
    simp only
    split
    · rename_i hk hc hm
      have := readKey_some hk
      have := readCondition_some hc
      have := readMark_some hm
      omega
    · rfl

theorem dropMarksRule_badArgument (len : p.length = 9)
    (h : 16 ≤ (p.getD 0 0).toNat ∨ 2 ≤ (p.getD 3 0).toNat ∨ 16 ≤ (p.getD 6 0).toNat ∨ 4 ≤ (p.getD 7 0).toNat ∨
      (32 ≤ (p.getD 8 0).toNat ∧ (p.getD 8 0).toNat ≠ 0xFF)) :
    dropMarksRule p s = (s, .bare .badArgument) := by
  match p, len with
  | [d, p0, p1, c, r0, r1, cs, os, sel], _ =>
    simp only [List.getD_cons_zero, List.getD_cons_succ] at h
    unfold dropMarksRule
    simp only
    split
    · rename_i hk hc hcs hos hl
      have := readKey_some hk
      have := readCondition_some hc
      have := readClassSet_some hcs
      have := readOwnerSet_some hos
      have := readLineSelector_some hl
      omega
    · rfl

theorem dataRule_badArgument (len : 1 ≤ p.length) (h : 2 ≤ (p.getD 0 0).toNat) :
    dataRule p s = (s, .bare .badArgument) := by
  match p, len with
  | sl :: bytes, _ => simp only [dataRule, readBelow_none (n := 2) sl h]

theorem dataRule_slotState {i : Fin 2} (len : 2 ≤ p.length ∧ p.length ≤ 257) (at0 : (p.getD 0 0).toNat = i.val)
    (h : ∀ r ∈ s.load.slots[i], r.complete = true) : dataRule p s = (s, .bare .slotState) := by
  match p, len with
  | sl :: bytes, len =>
    have bounds : ¬ (bytes.length = 0 ∨ 256 < bytes.length) := by rw [List.length_cons] at len; omega
    have read : readBelow 2 sl = some i := readBelow_of_toNat at0
    simp only [dataRule, read, if_neg bounds]
    split
    · rfl
    · rename_i r hr
      rw [if_pos (h r hr)]

theorem cancelLoadRule_badArgument (len : p.length = 1) (h : 2 ≤ (p.getD 0 0).toNat) :
    cancelLoadRule p s = (s, .bare .badArgument) := by
  match p, len with
  | [sl], _ => simp only [cancelLoadRule, readBelow_none (n := 2) sl h]

theorem cancelLoadRule_slotState {i : Fin 2} (len : p.length = 1) (at0 : (p.getD 0 0).toNat = i.val)
    (h : s.load.slots[i] = none) : cancelLoadRule p s = (s, .bare .slotState) := by
  match p, len with
  | [sl], _ =>
    have read : readBelow 2 sl = some i := readBelow_of_toNat at0
    simp only [cancelLoadRule, read, h]

theorem commitRule_badArgument (len : p.length = 1 ∨ p.length = 4)
    (h : 2 ≤ (p.getD 0 0).toNat ∨ (p.length = 4 ∧ (p.getD 1 0).toNat ∉ [1, 2, 3])) :
    commitRule p s = (s, .bare .badArgument) := by
  have unread : readCommitArgs p = none := by
    rcases len with len | len
    · match p, len with
      | [sl], _ =>
        have : 2 ≤ sl.toNat := h.elim id fun h => by cases h.1
        simp only [readCommitArgs, readBelow_none sl this, Option.map_none]
    · match p, len with
      | [sl, c, r0, r1], _ =>
        refine Option.eq_none_iff_forall_ne_some.mpr fun x hx => ?_
        simp only [readCommitArgs, Option.bind_eq_bind, Option.bind_eq_some_iff] at hx
        obtain ⟨i, hi, cond, hc, -⟩ := hx
        have slot := readBelow_some hi
        rcases h with h | ⟨-, h⟩
        · simp only [List.getD_cons_zero] at h; omega
        · exact h (readCommitCondition_some hc)
  simp only [commitRule, unread]

theorem sweepRule_badArgument (len : p.length = 15)
    (h : 2 ≤ (p.getD 0 0).toNat ∨ 16 ≤ (p.getD 1 0).toNat ∨
      (p.getD 4 0).toNat + 256 * (p.getD 5 0).toNat < (p.getD 2 0).toNat + 256 * (p.getD 3 0).toNat ∨
      16 ≤ (p.getD 6 0).toNat ∨ 16 ≤ (p.getD 7 0).toNat ∨ 16 ≤ (p.getD 8 0).toNat ∨ (p.getD 9 0).toNat = 0 ∨
      32 ≤ (p.getD 9 0).toNat ∨ ((p.getD 9 0).toNat % 2 = 1 ∧ (p.getD 9 0).toNat ≠ 1) ∨
      ((p.getD 9 0).toNat / 2 % 2 = 1 ∧ 2 ≤ (p.getD 10 0).toNat) ∨
      ((p.getD 9 0).toNat / 4 % 2 = 1 ∧ 16 ≤ (p.getD 11 0).toNat) ∨
      ((p.getD 9 0).toNat / 8 % 2 = 1 ∧ (16 ≤ (p.getD 12 0).toNat ∨ 4 ≤ (p.getD 13 0).toNat)) ∨
      ((p.getD 9 0).toNat / 16 % 2 = 1 ∧ 16 ≤ (p.getD 14 0).toNat)) :
    sweepRule p s = (s, .bare .badArgument) := by
  match p, len with
  | [en, doc, f0, f1, l0, l1, m, v0, v1, acts, p, g, cs, os, d], _ =>
    simp only [List.getD_cons_zero, List.getD_cons_succ] at h
    unfold sweepRule
    split
    · rfl
    · rename_i hd
      obtain ⟨⟨_, _, _, _, _⟩, _, ⟨_, _, _⟩, pin, group, marks, move⟩ := readDescriptor_some hd
      exfalso
      rcases h with h | h | h | h | h | h | h | h | ⟨h, h'⟩ | ⟨h, h'⟩ | ⟨h, h'⟩ | ⟨h, h'⟩ | ⟨h, h'⟩
      case inr.inr.inr.inr.inr.inr.inr.inr.inr.inl => have := pin h; omega
      case inr.inr.inr.inr.inr.inr.inr.inr.inr.inr.inl => have := group h; omega
      case inr.inr.inr.inr.inr.inr.inr.inr.inr.inr.inr.inl => have := marks h; omega
      case inr.inr.inr.inr.inr.inr.inr.inr.inr.inr.inr.inr => have := move h; omega
      all_goals omega

end

end Sys2Proof.Machine

section
open Sys2Proof Sys2Proof.Machine

/-- Settles O27: plain equality, and a code that no condition has is not read. -/
theorem conditionsAreChecked : Obligations.ConditionsAreChecked := by
  refine ⟨fun _ => rfl, fun r v => beq_iff_eq, ?_⟩
  rintro s _ tag code d p0 p1 c rest row rfl hcode hrow allowed accepts h0 h1
  have other : 2 ≤ c.toNat := by
    have ne0 : c.toNat ≠ 0 := fun h => h0 (BitVec.eq_of_toNat_eq h)
    have ne1 : c.toNat ≠ 1 := fun h => h1 (BitVec.eq_of_toNat_eq h)
    omega
  have len : (d :: p0 :: p1 :: c :: rest).length = rest.length + 4 := rfl
  rw [← len] at allowed
  simp only [List.mem_cons, List.not_mem_nil, or_false] at hcode
  rcases hcode with rfl | rfl | rfl | rfl <;> obtain rfl := Option.some.inj hrow
  · exact State.exec_refused rfl accepts allowed
      (patchCellsRule_badArgument (lengthAllowed_patchCells allowed) (.inr (.inl other)))
  · exact State.exec_refused rfl accepts allowed (retireRule_badArgument (beq_iff_eq.mp allowed) (.inr other))
  · exact State.exec_refused rfl accepts allowed (addMarkRule_badArgument (beq_iff_eq.mp allowed) (.inr (.inl other)))
  · exact State.exec_refused rfl accepts allowed (dropMarksRule_badArgument (beq_iff_eq.mp allowed) (.inr (.inl other)))

end
end

section
section
open Sys2Proof Sys2Proof.Machine

/-- Settles O26, by the bytes that each command's readers let through. -/
theorem argumentsAreChecked : Obligations.ArgumentsAreChecked := by
  rintro s _ tag code p row at' rfl hrow allowed accepts hat
  obtain rfl : at' = fun j => (p.getD j 0).toNat := funext hat
  have refused : ∀ {owner : List Byte → State → State × Reply} {r : Reply},
      exec row s = s.take code (frameOf tag p) owner → owner p s = (s, r) →
      exec row s = .next (s.answer code tag r.status r.payload) := fun taking h =>
    State.exec_refused taking accepts allowed h
  refine ⟨fun h => ?_, fun i at0 h => ?_⟩
  · rcases h with ⟨hc, h⟩ | ⟨rfl, h⟩ | ⟨rfl, h⟩ | ⟨rfl, h⟩ | ⟨rfl, h⟩ | ⟨hc, h⟩ | ⟨rfl, four, h⟩ | ⟨rfl, h⟩
    · simp only [List.mem_cons, List.not_mem_nil, or_false] at hc
      rcases hc with rfl | rfl | rfl | rfl | rfl | rfl | rfl <;> obtain rfl := Option.some.inj hrow
      · exact refused rfl (queryEntryRule_badArgument (beq_iff_eq.mp allowed) h)
      · exact refused rfl (patchCellsRule_badArgument (lengthAllowed_patchCells allowed) (.inl h))
      · exact refused rfl (retireRule_badArgument (beq_iff_eq.mp allowed) (.inl h))
      · exact refused rfl (setEntryRule_badArgument (beq_iff_eq.mp allowed) (.inl h))
      · exact refused rfl (addMarkRule_badArgument (beq_iff_eq.mp allowed) (.inl h))
      · exact refused rfl (dropMarksRule_badArgument (beq_iff_eq.mp allowed) (.inl h))
      · exact refused rfl (showRule_badArgument (beq_iff_eq.mp allowed) h)
    · obtain rfl := Option.some.inj hrow
      exact refused rfl (patchCellsRule_badArgument (lengthAllowed_patchCells allowed) (.inr (.inr h)))
    · obtain rfl := Option.some.inj hrow
      exact refused rfl (setEntryRule_badArgument (beq_iff_eq.mp allowed) (.inr h))
    · obtain rfl := Option.some.inj hrow
      exact refused rfl (addMarkRule_badArgument (beq_iff_eq.mp allowed) (.inr (.inr h)))
    · obtain rfl := Option.some.inj hrow
      exact refused rfl (dropMarksRule_badArgument (beq_iff_eq.mp allowed) (.inr (.inr h)))
    · simp only [List.mem_cons, List.not_mem_nil, or_false] at hc
      rcases hc with rfl | rfl | rfl <;> obtain rfl := Option.some.inj hrow
      · exact refused rfl (dataRule_badArgument (Nat.le_of_succ_le (lengthAllowed_data allowed).1) h)
      · exact refused rfl (commitRule_badArgument (lengthAllowed_commit allowed) (.inl h))
      · exact refused rfl (cancelLoadRule_badArgument (beq_iff_eq.mp allowed) h)
    · obtain rfl := Option.some.inj hrow
      exact refused rfl (commitRule_badArgument (lengthAllowed_commit allowed) (.inr ⟨four, h⟩))
    · obtain rfl := Option.some.inj hrow
      exact refused rfl (sweepRule_badArgument (beq_iff_eq.mp allowed) h)
  · rcases h with ⟨rfl, h⟩ | ⟨rfl, h⟩ <;> obtain rfl := Option.some.inj hrow
    · exact refused rfl (dataRule_slotState (lengthAllowed_data allowed) at0 h)
    · exact refused rfl (cancelLoadRule_slotState (beq_iff_eq.mp allowed) at0 h)

end
end

section
/-! SUPPORT. The resets, against the values that R21, R48, R81, R96, R112, R132, R150, R153, R166 and R179 name. -/

namespace Sys2Proof.Machine

/-- R189: the resets, as the change that each makes. -/
theorem State.resetBlocks_eq (s : State) (kind : ResetKind) : s.resetBlocks kind = s.afterReset kind := by
  obtain ⟨pending, resetPin, supplyPin, link, dir, load, sweep, nav, comp, pins, drive, cal, touch⟩ := s
  cases kind <;> cases supplyPin <;> rfl

/-- R190: the RESET command resets, and answers. -/
theorem exec_resetCommand {s : State} {tag : Byte} (accepts : s.Accepts 0x7F (frameOf tag [])) :
    exec (.resetCommand (frameOf tag [])) s = .next ((s.afterReset .command).answer 0x7F tag .ok []) := by
  have rule : resetRule [] s = (s.afterReset .command, ⟨.ok, []⟩) := congrArg (·, _) (s.resetBlocks_eq .command)
  exact State.take_frameOf accepts rfl rule

/-- At a reset the invariants of every block hold. -/
theorem State.reset_safe : State.reset.Safe := by
  have pages : State.reset.PagesAgree := .afterReset rfl rfl rfl
  have marks : State.reset.MarksSound := by decide +kernel
  have nav : State.reset.NavigationAgrees := by decide +kernel
  have image : State.reset.ImageComposed := by decide +kernel
  have stores : State.reset.StoresCanonical := by decide +kernel
  have pins : State.reset.PinsSound := by decide +kernel
  have drive : State.reset.DriveSound := by decide +kernel
  have cal : State.reset.CalendarSound := by decide +kernel
  have touch : State.reset.TouchSound := by decide +kernel
  have notices : State.reset.NoticesDistinct := by decide +kernel
  have counts : State.reset.SweepCountsSound := nofun
  exact ⟨pages, marks, nav, image, stores, pins, drive, cal, touch, notices, counts⟩

/-! ### The vectors of the blocks after a reset, element by element -/

theorem State.reset_codes : SpellsCodes
    [0x0D, 1, 0, 0x0C, 1, 1, 0x12, 1, 2, 0x13, 1, 3, 0x1C, 1, 4, 0x1D, 3, 5, 0, 0, 0, 0, 0, 0] State.reset.load.codes := by
  decide +kernel

theorem State.reset_keys : ∀ j : Fin 5, State.reset.nav.keys[j] = { pressed := false, run := 0 } := by decide +kernel

theorem State.reset_statusText : ∀ c : Fin 30, State.reset.comp.statusText[c] = 0 := by decide +kernel

theorem State.reset_rows : ∀ r : Fin 128, State.reset.comp.target[r] = 0 ∧ State.reset.pins.known[r] = false ∧
    State.reset.pins.confirmed[r] = 0 := by decide +kernel

theorem State.reset_markPins : ∀ l : Fin 32, State.reset.comp.markPins[l] = 0 := by decide +kernel

theorem State.reset_zones : ∀ z : Fin 16,
    State.reset.touch.zones[z] = { state := .clear, baseline := none, run := 0, hold := none } := by decide +kernel

end Sys2Proof.Machine

section
open Sys2Proof Sys2Proof.Machine

/-- Settles O52: each value is that of the block's reset record, and the invariants are decided of it. -/
theorem resetsPutTheResetValues : Obligations.ResetsPutTheResetValues := by
  refine ⟨fun s b tag => ⟨congrArg Host.Outcome.next (s.resetBlocks_eq .powerOn),
    congrArg Host.Outcome.next (State.resetBlocks_eq { s with resetPin := false } .pin), rfl, ?_⟩, State.reset_safe,
    rfl, rfl, rfl, rfl, rfl, rfl, rfl, rfl, Directory.afterReset_entry, fun _ _ => rfl, rfl, Decoder.afterReset_slot, rfl,
    State.reset_codes, rfl, rfl, State.reset_keys, rfl, State.reset_statusText, rfl, rfl, rfl, rfl, rfl, State.reset_rows,
    State.reset_markPins, rfl, fun _ _ => rfl, rfl, rfl, rfl, rfl, rfl, rfl, rfl, ⟨_, _, rfl⟩, State.reset_zones,
    rfl, rfl, rfl, rfl⟩
  rintro rfl accepts
  exact exec_resetCommand accepts

end
end

section
/-! SUPPORT. The reports: summaries (R15 to R17) and the position sets of READ ROW (R128). -/

namespace Sys2Proof.Machine

/-! ### Summaries (R16) -/

theorem EntryState.code_eq (x : EntryState) :
    x.code = if x = .free then 0 else if x = .loading then 1 else if x = .ready then 2 else 3 := by
  cases x <;> rfl

theorem Kind.code_eq (x : Kind) : x.code = if x = .text then 0 else 1 := by cases x <;> rfl

theorem putMark_eq (m : Mark) : putMark m =
    [if m.cls = .cursor then 0 else if m.cls = .bookmark then 1 else if m.cls = .highlight then 2 else 3,
      if m.owner = .supplied then 0 else 1, put8 m.line.val, put8 m.first, put8 m.length] := by
  obtain ⟨cls, owner, line, first, length⟩ := m
  cases cls <;> cases owner <;> rfl

theorem putKeyOr_length (response place : Nat) (k : Option Key) : (putKeyOr response place k).length = 3 := by
  cases k <;> rfl

/-- R16: a summary has 13 bytes and 5 of each mark. -/
theorem putSummary_length (s : State) (i : Fin 48) : (putSummary s i).length = 13 + 5 * s.dir.entries[i].marks.length := by
  have marks : ∀ l : List Mark, (l.flatMap putMark).length = 5 * l.length := fun l => by
    induction l with
    | nil => rfl
    | cons m l ih => rw [List.flatMap_cons, List.length_append, ih, List.length_cons]; simp [putMark]; omega
  unfold putSummary
  simp only [List.length_append, putKeyOr_length, marks, put16, List.length_cons, List.length_nil]

/-- R16: what QUERY ENTRY and LIST ENTRIES send of an entry is its summary. -/
theorem putSummary_summary (s : State) (i : Fin 48) : s.Summary i (putSummary s i) := by
  refine ⟨_, putKeyOr s.link.served (2 * i.val) s.dir.entries[i].key,
    putIndexOr ((loadingSlotField s.load s.dir.entries[i]).map Fin.val), rfl, ?_, fun k hk => ?_, fun hk => ?_, fun hf => ?_,
    fun hl => ?_, fun hv k hk => ?_⟩
  · rw [← EntryState.code_eq, ← Kind.code_eq, ← funext putMark_eq]
    simp only [putSummary, put16, putBool, List.append_assoc, List.cons_append, List.nil_append]
  · rw [hk]; rfl
  · rw [hk]; exact ⟨_, _, rfl⟩
  · simp only [loadingSlotField, hf]; rfl
  · simp only [loadingSlotField, hl]
    cases s.dir.entries[i].slot <;> rfl
  · have field : loadingSlotField s.load s.dir.entries[i] = s.load.slotOfKey k := by
      rcases hv with hv | hv <;> simp only [loadingSlotField, hv, hk, Option.bind_some]
    rw [field]
    refine ⟨fun j hj => ?_, fun none => ?_⟩
    · rw [Decoder.slotOfKey_some.mpr hj]; rfl
    · rw [Decoder.slotOfKey_none.mpr none]; rfl

/-- R1, R16: the summary of a FREE entry. -/
theorem putSummary_free {s : State} {i : Fin 48} (h : s.dir.entries[i] = Entry.free) :
    ∃ x y, putSummary s i = [put8 i.val, 0, 0xFF, x, y, 0, 0, 0, 0, 0, 0, 0xFF, 0] := by
  refine ⟨Config.unstatedByte s.link.served (2 * i.val), Config.unstatedByte s.link.served (2 * i.val + 1), ?_⟩
  unfold putSummary
  rw [h]
  rfl

/-! ### QUERY ENTRY (R15) -/

theorem queryEntryRule_visible {s : State} {k : Key} {v : Fin 48} (h : s.dir.visibleEntry k = some v) :
    queryEntryRule (putKey k) s = (s, ⟨.ok, putSummary s v⟩) := by
  cases held : s.dir.entries[v].held with
  | false => simp only [putKey, put16, queryEntryRule, readKey_putKey, Directory.lookup_visible.mpr ⟨h, held⟩]
  | true => simp only [putKey, put16, queryEntryRule, readKey_putKey, Directory.lookup_held.mpr ⟨h, held⟩]

theorem queryEntryRule_loading {s : State} {k : Key} {j : Fin 2} (h : s.dir.lookup k = .loading (some j)) :
    queryEntryRule (putKey k) s = (s, ⟨.notFound, [1, put8 j.val]⟩) := by
  simp only [putKey, put16, queryEntryRule, readKey_putKey, h]
  rfl

theorem queryEntryRule_absent {s : State} {k : Key} (h : s.dir.lookup k = .absent) :
    queryEntryRule (putKey k) s = (s, ⟨.notFound, [0, 0xFF]⟩) := by
  simp only [putKey, put16, queryEntryRule, readKey_putKey, h]
  rfl

/-! ### LIST ENTRIES (R17) -/

/-- The summaries that fit are the first ones. -/
theorem fitSummaries_prefix (room : Nat) (l : List (List Byte)) : fitSummaries room l <+: l := by
  induction l generalizing room with
  | nil => exact List.prefix_rfl
  | cons x rest ih =>
    unfold fitSummaries
    split
    · exact (List.prefix_cons_inj x).mpr (ih _)
    · exact List.nil_prefix

/-- They fit. -/
theorem fitSummaries_length (room : Nat) (l : List (List Byte)) : (fitSummaries room l).flatten.length ≤ room := by
  induction l generalizing room with
  | nil => exact Nat.zero_le _
  | cons x rest ih =>
    unfold fitSummaries
    split
    · have := ih (room - x.length)
      rw [List.flatten_cons, List.length_append]
      omega
    · exact Nat.zero_le _

/-- And the next one does not. -/
theorem fitSummaries_full (room : Nat) (l : List (List Byte)) (x : List Byte)
    (next : l[(fitSummaries room l).length]? = some x) : room < (fitSummaries room l).flatten.length + x.length := by
  induction l generalizing room with
  | nil => cases next
  | cons y rest ih =>
    unfold fitSummaries at next ⊢
    split at next <;> rename_i fits
    · rw [if_pos fits, List.flatten_cons, List.length_append]
      have := ih (room - y.length) next
      omega
    · obtain rfl := Option.some.inj next
      rw [if_neg fits, List.flatten_nil, List.length_nil]
      omega

/-- The numbers of a range that lie in an interval of it. -/
theorem filter_range_interval {n a c : Nat} (h : a + c ≤ n) :
    (List.range n).filter (fun i => decide (a ≤ i) && decide (i < a + c)) = List.range' a c := by
  have parts : List.range n = List.range' 0 a ++ (List.range' a c ++ List.range' (a + c) (n - (a + c))) := by
    rw [List.range'_append_1, List.range_eq_range']
    nth_rw 2 [show a = 0 + a by omega]
    rw [List.range'_append_1]
    congr 1
    omega
  rw [parts, List.filter_append, List.filter_append, List.filter_eq_nil_iff.mpr, List.filter_eq_self.mpr,
    List.filter_eq_nil_iff.mpr, List.nil_append, List.append_nil]
  all_goals
    intro i hi
    rw [List.mem_range'_1] at hi
    simp only [Bool.and_eq_true, decide_eq_true_eq]
    omega

/-- The indexes of the entries from `first` on. -/
def listedEntries (first count : Nat) : List (Fin 48) :=
  (List.finRange 48).filter fun i => decide (first ≤ i.val) && decide (i.val < first + count)

theorem listedEntries_val {first count : Nat} (h : first + count ≤ 48) :
    (listedEntries first count).map Fin.val = List.range' first count := by
  rw [← filter_range_interval h, ← List.map_coe_finRange_eq_range, List.filter_map]
  rfl

theorem State.summaries_length (s : State) {first count : Nat} (h : first + count ≤ 48) :
    (s.summaries first count).length = count := by
  have listed := congrArg List.length (listedEntries_val h)
  rw [List.length_map, List.length_range'] at listed
  exact (List.length_map (putSummary s)).trans listed

/-- R17: the summaries are those of the entries from `first` on, in index order. -/
theorem State.summaries_getElem? (s : State) {first count j : Nat} {i : Fin 48} (h : first + count ≤ 48) (hj : j < count)
    (hi : i.val = first + j) : (s.summaries first count)[j]? = some (putSummary s i) := by
  have listed : (listedEntries first count)[j]?.map Fin.val = some i.val := by
    rw [← List.getElem?_map, listedEntries_val h, List.getElem?_range' (by omega), hi]
    simp
  obtain ⟨i', hi', same⟩ := Option.map_eq_some_iff.mp listed
  obtain rfl : i' = i := Fin.ext same
  change ((listedEntries first count).map (putSummary s))[j]? = _
  rw [List.getElem?_map, hi']
  rfl

theorem listEntriesRule_listed {s : State} {first count : Nat} (h0 : first < 48) (h1 : 1 ≤ count) (h2 : first + count ≤ 48) :
    listEntriesRule [put8 first, put8 count] s =
      (s, ⟨.ok, put8 (fitSummaries 299 (s.summaries first count)).length ::
        (fitSummaries 299 (s.summaries first count)).flatten⟩) := by
  have hf : (put8 first).toNat = first := by rw [put8_toNat]; omega
  have hc : (put8 count).toNat = count := by rw [put8_toNat]; omega
  have good : first ≤ 47 ∧ 1 ≤ count ∧ count ≤ 48 ∧ first + count ≤ 48 := by omega
  simp only [listEntriesRule, hf, hc, if_pos good]
  rfl

theorem listEntriesRule_badArgument {s : State} {first count : Byte}
    (h : 47 < first.toNat ∨ count = 0 ∨ 48 < first.toNat + count.toNat) :
    listEntriesRule [first, count] s = (s, .bare .badArgument) := by
  refine if_neg fun good => ?_
  rcases h with h | rfl | h
  · omega
  · exact absurd good.2.1 (by decide)
  · omega

/-! ### READ ROW (R128) -/

/-- R184: the ten bytes of a position set spell it. -/
theorem putRow_spells (x : PinRow) : SpellsRow (putRow x) x := by
  refine ⟨by simp [putRow], fun c => ?_⟩
  have inRow : c.val / 8 < 10 := by omega
  have inByte : c.val % 8 < 8 := by omega
  have place : 8 * (c.val / 8) + c.val % 8 = c.val := by omega
  rw [List.getD_eq_getElem?_getD, putRow, List.getElem?_map, List.getElem?_range inRow]
  simp only [Option.map_some, Option.getD_some, BitVec.getLsbD_setWidth, BitVec.getLsbD_ushiftRight, place, inByte,
    decide_true, Bool.true_and]

theorem columnBit_getLsbD (d c : Fin 80) : (columnBit d).getLsbD c.val = true ↔ d = c := by
  simp only [columnBit, BitVec.getLsbD_shiftLeft, BitVec.getLsbD_one, Bool.and_eq_true, decide_eq_true_eq,
    Bool.not_eq_true', decide_eq_false_iff_not, Fin.ext_iff]
  omega

/-- The bits of a union of columns. -/
theorem foldl_columnBit_getLsbD (l : List FaultRecord) (acc : PinRow) (c : Fin 80) :
    (l.foldl (fun acc f => acc ||| columnBit f.col) acc).getLsbD c.val = true ↔
      acc.getLsbD c.val = true ∨ ∃ f ∈ l, f.col = c := by
  induction l generalizing acc with
  | nil => simp
  | cons f l ih =>
    rw [List.foldl_cons, ih, BitVec.getLsbD_or, Bool.or_eq_true, columnBit_getLsbD]
    simp [or_assoc]

/-- R116: the stuck columns of a row are those of its records. -/
theorem PinField.stuckColumns_getLsbD (p : PinField) (r : Fin 128) (c : Fin 80) :
    (p.stuckColumns r).getLsbD c.val = true ↔ ∃ f ∈ p.faults, f.row = r ∧ f.col = c := by
  rw [PinField.stuckColumns, foldl_columnBit_getLsbD]
  simp [and_assoc]

/-- The columns of a half. -/
theorem halfColumns_getLsbD (h : Fin 2) (c : Fin 80) : (halfColumns h).getLsbD c.val = true ↔ halfOfCol c = h := by
  revert h c; decide +kernel

/-- R116: the touched columns of a row are those whose zone is TOUCHED. -/
theorem State.touchedColumns_getLsbD (s : State) (r : Fin 128) (c : Fin 80) :
    (s.touchedColumns r).getLsbD c.val = true ↔ s.touch.zones[zoneOfPin r c].state = .touched := by
  have part : ∀ h : Fin 2, (if s.touch.zones[zoneAt (bandOfRow r) h].state = .touched then halfColumns h else 0).getLsbD
      c.val = true ↔ s.touch.zones[zoneAt (bandOfRow r) h].state = .touched ∧ halfOfCol c = h := fun h => by
    split
    · rename_i ht; rw [halfColumns_getLsbD]; exact (and_iff_right ht).symm
    · rename_i ht; simp [ht, -Fin.getElem_fin]
  rw [State.touchedColumns, BitVec.getLsbD_or, Bool.or_eq_true, part, part]
  have either : ∀ h : Fin 2, (s.touch.zones[zoneAt (bandOfRow r) 0].state = .touched ∧ h = 0 ∨
      s.touch.zones[zoneAt (bandOfRow r) 1].state = .touched ∧ h = 1) ↔
        s.touch.zones[zoneAt (bandOfRow r) h].state = .touched := fun h => by
    obtain rfl | rfl : h = 0 ∨ h = 1 := by omega
    · simp
    · simp
  exact either (halfOfCol c)

/-- R116: the deferred candidates of a row. -/
theorem State.deferred_getLsbD (s : State) (r : Fin 128) (c : Fin 80) :
    (s.deferred r).getLsbD c.val = true ↔
      s.pins.known[r] = true ∧ s.comp.target[r].getLsbD c.val ≠ s.pins.confirmed[r].getLsbD c.val ∧
        (∀ f ∈ s.pins.faults, ¬ (f.row = r ∧ f.col = c)) ∧ s.touch.zones[zoneOfPin r c].state = .touched := by
  have candidate : (s.candidates r).getLsbD c.val = true ↔
      s.pins.known[r] = true ∧ s.comp.target[r].getLsbD c.val ≠ s.pins.confirmed[r].getLsbD c.val := by
    unfold State.candidates
    split
    · rename_i known; simp [known, -Fin.getElem_fin]
    · rename_i known; simp [known, -Fin.getElem_fin]
  have notStuck : (~~~(s.pins.stuckColumns r)).getLsbD c.val = true ↔ ∀ f ∈ s.pins.faults, ¬ (f.row = r ∧ f.col = c) := by
    rw [BitVec.getLsbD_not, Bool.and_eq_true, decide_eq_true_eq, and_iff_right c.isLt, Bool.not_eq_true',
      ← Bool.not_eq_true, PinField.stuckColumns_getLsbD]
    simp
  rw [State.deferred, BitVec.getLsbD_and, BitVec.getLsbD_and, Bool.and_eq_true, Bool.and_eq_true, candidate, notStuck,
    State.touchedColumns_getLsbD]
  simp only [and_assoc]

theorem readRowRule_row (s : State) (r : Fin 128) :
    readRowRule [put8 r.val] s = (s, ⟨.ok, (if s.pins.known[r] then 1 else 0) :: putRow s.pins.confirmed[r] ++
      putRow s.comp.target[r] ++ putRow (s.deferred r) ++ putRow (s.pins.stuckColumns r)⟩) := by
  simp only [readRowRule, readBelow_row]
  rfl

theorem readRowRule_badArgument {s : State} {r : Byte} (h : 128 ≤ r.toNat) :
    readRowRule [r] s = (s, .bare .badArgument) := by
  simp only [readRowRule, readBelow_none r h]

end Sys2Proof.Machine

section
open Sys2Proof Sys2Proof.Machine

/-- Settles O23, by what each of the three rules sends. -/
theorem reportsReadTheState : Obligations.ReportsReadTheState := by
  intro s b tag
  refine ⟨?_, ?_, ?_, ?_, ?_⟩
  · rintro k rfl accepts agree
    refine ⟨fun v hv => ⟨putSummary s v, putSummary_summary s v,
      State.take_frameOf accepts rfl (queryEntryRule_visible hv)⟩, fun j r hv hr hk => ?_, fun absent => ?_⟩
    · exact State.take_frameOf accepts rfl (queryEntryRule_loading ((agree.lookup_loading j).mpr ⟨hv, r, hr, hk⟩))
    · exact State.take_frameOf accepts rfl (queryEntryRule_absent (Directory.lookup_absent.mpr fun i _ => absent i))
  · rintro first count rfl accepts sound h0 h1 h2
    have all := s.summaries_length h2
    have part := fitSummaries_prefix 299 (s.summaries first count)
    have fits := fitSummaries_length 299 (s.summaries first count)
    have full := fitSummaries_full 299 (s.summaries first count)
    have answer := State.take_frameOf (owner := listEntriesRule) accepts rfl (listEntriesRule_listed (s := s) h0 h1 h2)
    generalize fitSummaries 299 (s.summaries first count) = fit at part fits full answer
    have atMost : fit.length ≤ count := all ▸ part.length_le
    have tooLong : ∀ i : Fin 48, fit.length < count → i.val = first + fit.length →
        299 < fit.flatten.length + (13 + 5 * s.dir.entries[i].marks.length) := fun i hlt hi => by
      rw [← putSummary_length]
      exact full _ (s.summaries_getElem? h2 hlt hi)
    refine ⟨fit, ?_, atMost, fun j i bytes hb hi => ?_, fits, tooLong, answer⟩
    · by_contra hn
      have none : fit = [] := List.eq_nil_of_length_eq_zero (by omega)
      have := tooLong ⟨first, h0⟩ (by omega) (by rw [none]; rfl)
      have := (sound.1 ⟨first, h0⟩).1
      rw [none, List.flatten_nil, List.length_nil] at *
      omega
    · have hj : j < fit.length := (List.getElem?_eq_some_iff.mp hb).1
      have same := s.summaries_getElem? h2 (by omega : j < count) hi
      obtain ⟨rest, whole⟩ := part
      rw [← List.getElem?_append_left (l₂ := rest) hj, whole] at hb
      obtain rfl : bytes = putSummary s i := Option.some.inj (hb.symm.trans same)
      exact ⟨putSummary_summary s i, fun agree hf => putSummary_free ((agree.1 i).1 hf)⟩
  · rintro first count rfl accepts h
    exact State.take_frameOf accepts rfl (listEntriesRule_badArgument h)
  · rintro r rfl accepts
    exact ⟨s.deferred r, s.pins.stuckColumns r, _, _, _, _, s.deferred_getLsbD r, s.pins.stuckColumns_getLsbD r,
      putRow_spells _, putRow_spells _, putRow_spells _, putRow_spells _,
      State.take_frameOf accepts rfl (readRowRule_row s r)⟩
  · rintro r rfl accepts h
    exact State.take_frameOf accepts rfl (readRowRule_badArgument h)

end
end

section
/-! SUPPORT. The operations of the Stream Decoder in closed form (R28 to R38): a move of the write position is one step of
`LoadSlot.leaving`, and every element of a stream is a run of cells and one move. -/

namespace Sys2Proof.Machine

/-! ### Closing a mark and moving -/

/-- R35, R36: closing a mark, by the mark list and the dropped count that it leaves. -/
theorem StreamWork.closeMark_eq (w : StreamWork) (c : Nat) : w.closeMark c = { w with
    slot := { w.slot with openMark := none, dropped := (w.slot.closing w.marks c).2 }
    marks := (w.slot.closing w.marks c).1 } := by
  obtain ⟨⟨complete, entry, key, kind, condition, offset, position, text, openMark, dropped⟩, marks, frames⟩ := w
  cases openMark with
  | none => rfl
  | some o =>
    simp only [StreamWork.closeMark, LoadSlot.closing, StreamWork.offer, offered, List.contains_iff_mem]
    split
    · rfl
    · split
      · rename_i full
        rw [if_pos (show 8 ≤ marks.length from full)]
      · rename_i room
        rw [if_neg (show ¬ 8 ≤ marks.length from room)]

/-- R28, R36, R37: a move of the write position. -/
theorem StreamWork.moveTo_eq (w : StreamWork) (next : Nat) : w.moveTo next = { w with
    slot := { w.slot with
      position := next
      complete := decide (1280 ≤ next)
      openMark := (w.slot.leaving w.marks next).1
      dropped := (w.slot.leaving w.marks next).2.2 }
    marks := (w.slot.leaving w.marks next).2.1 } := by
  unfold StreamWork.moveTo LoadSlot.leaving
  simp only [StreamWork.closeMark_eq, Config.cellsPerLine]
  by_cases h : w.slot.position / 40 = next / 40
  · simp only [h, ne_eq, not_true, if_false, if_true]; rfl
  · simp only [h, ne_eq, not_false_iff, if_false, if_true]; rfl

/-- Of a stream, that its record says when its page has ended (R37). -/
abbrev StreamWork.Ends (w : StreamWork) : Prop := w.slot.complete = decide (1280 ≤ w.slot.position)

/-- A move to where the stream stands. -/
theorem StreamWork.moveTo_self {w : StreamWork} (h : w.Ends) : w.moveTo w.slot.position = w := by
  simp only [StreamWork.moveTo_eq, LoadSlot.leaving, if_true, ← h]

/-- Moves that follow each other are one move. -/
theorem StreamWork.moveTo_moveTo (w : StreamWork) {p q : Nat} (h1 : w.slot.position ≤ p) (h2 : p ≤ q) :
    (w.moveTo p).moveTo q = w.moveTo q := by
  have left : w.slot.position / 40 ≠ p / 40 → w.slot.position / 40 ≠ q / 40 := by omega
  have right : w.slot.position / 40 = p / 40 → (w.slot.position / 40 = q / 40 ↔ p / 40 = q / 40) := by omega
  simp only [StreamWork.moveTo_eq, LoadSlot.leaving]
  by_cases hp : w.slot.position / 40 = p / 40
  · by_cases hq : p / 40 = q / 40
    · simp [hp, hq]
    · simp [hp, hq, LoadSlot.closing]
  · by_cases hq : p / 40 = q / 40
    · simp [left hp, hq]
    · simp [hp, left hp, hq, LoadSlot.closing]

/-! ### A run of cells and one move -/

/-- The stream after cells are written from the write position on, and the position has moved to `next`. -/
def StreamWork.write (w : StreamWork) (cells : List Byte) (next : Nat) : StreamWork :=
  { w.moveTo next with frames := writeFrameRun w.frames w.slot.entry w.slot.position cells }

/-- The stream with `n` more bytes counted (R27). -/
def StreamWork.count (w : StreamWork) (n : Nat) : StreamWork :=
  { w with slot := { w.slot with offset := w.slot.offset + n } }

theorem StreamWork.write_eq (w : StreamWork) (cells : List Byte) (next : Nat) : w.write cells next = {
    slot := { w.slot with
      position := next
      complete := decide (1280 ≤ next)
      openMark := (w.slot.leaving w.marks next).1
      dropped := (w.slot.leaving w.marks next).2.2 }
    marks := (w.slot.leaving w.marks next).2.1
    frames := writeFrameRun w.frames w.slot.entry w.slot.position cells } := by
  rw [StreamWork.write, StreamWork.moveTo_eq]

theorem writeFrameRun_append (xs ys : List Byte) (m : List Host.Cell) (i : Fin 48) (o : Nat) :
    writeFrameRun m i o (xs ++ ys) = writeFrameRun (writeFrameRun m i o xs) i (o + xs.length) ys := by
  induction xs generalizing m o with
  | nil => rfl
  | cons x xs ih => rw [List.cons_append, writeFrameRun, ih, writeFrameRun, List.length_cons, Nat.add_right_comm,
      Nat.add_assoc]

/-- Runs that follow each other are one run. -/
theorem StreamWork.write_write (w : StreamWork) (xs ys : List Byte) {p q : Nat} (hp : p = w.slot.position + xs.length)
    (h : p ≤ q) : (w.write xs p).write ys q = w.write (xs ++ ys) q := by
  have moved := w.moveTo_moveTo (by omega : w.slot.position ≤ p) h
  rw [StreamWork.moveTo_eq, StreamWork.moveTo_eq, StreamWork.moveTo_eq] at moved
  simp only [StreamWork.mk.injEq, and_true] at moved
  rw [StreamWork.write_eq, StreamWork.write_eq, StreamWork.write_eq, writeFrameRun_append, ← hp]
  simp only [moved]

theorem StreamWork.write_nil (w : StreamWork) (next : Nat) : w.write [] next = w.moveTo next := by
  rw [StreamWork.write_eq, StreamWork.moveTo_eq]; rfl

theorem StreamWork.count_write (w : StreamWork) (n : Nat) (cells : List Byte) (next : Nat) :
    (w.count n).write cells next = (w.write cells next).count n := by
  rw [StreamWork.write_eq, StreamWork.write_eq]; rfl

theorem StreamWork.count_count (w : StreamWork) (n k : Nat) : (w.count n).count k = w.count (n + k) := by
  rw [StreamWork.count, StreamWork.count, StreamWork.count, ← Nat.add_assoc]

/-! ### The elements of a stream -/

/-- R28. -/
theorem StreamWork.putCell_eq (w : StreamWork) (b : Byte) : w.putCell b = w.write [b] (w.slot.position + 1) := by
  rw [StreamWork.write_eq, StreamWork.putCell, StreamWork.advance, StreamWork.moveTo_eq]; rfl

/-- R31. -/
theorem StreamWork.lineEnd_eq (w : StreamWork) : w.lineEnd =
    w.write (List.replicate ((w.slot.position / 40 + 1) * 40 - w.slot.position) 0) ((w.slot.position / 40 + 1) * 40) := by
  rw [StreamWork.write_eq, StreamWork.lineEnd, StreamWork.moveTo_eq]; rfl

/-- R31. -/
theorem StreamWork.pageEnd_eq (w : StreamWork) :
    w.pageEnd = w.write (List.replicate (1280 - w.slot.position) 0) 1280 := by
  rw [StreamWork.write_eq, StreamWork.pageEnd, StreamWork.moveTo_eq]; rfl

/-- R33: a skip is one move, clamped at the end of the page. -/
theorem StreamWork.skip_eq {w : StreamWork} (n : Nat) (h : w.Ends) (hp : w.slot.position ≤ 1280) :
    w.skip n = w.moveTo (min 1280 (w.slot.position + n)) := by
  induction n generalizing w with
  | zero => rw [Nat.add_zero, Nat.min_eq_right hp, StreamWork.moveTo_self h]; rfl
  | succ n ih =>
    rw [StreamWork.skip, h]
    have at' : w.advance.slot.position = w.slot.position + 1 := rfl
    split
    · rename_i full
      have : min 1280 (w.slot.position + (n + 1)) = w.slot.position := by simp at full; omega
      rw [this, StreamWork.moveTo_self h]
    · rename_i room
      have room : w.slot.position < 1280 := by simpa using room
      rw [ih rfl (by omega), at', Nat.add_right_comm, Nat.add_assoc]
      exact w.moveTo_moveTo (by omega) (by omega)

/-- R32: a repeated cell is one run, clamped at the end of the page. -/
theorem StreamWork.repeatCell_eq {w : StreamWork} (b : Byte) (n : Nat) (h : w.Ends) (hp : w.slot.position ≤ 1280) :
    w.repeatCell b n = w.write (List.replicate (min n (1280 - w.slot.position)) b) (min 1280 (w.slot.position + n)) := by
  induction n generalizing w with
  | zero =>
    rw [Nat.add_zero, Nat.min_eq_right hp, Nat.zero_min, List.replicate_zero, StreamWork.write_nil, StreamWork.moveTo_self h]
    rfl
  | succ n ih =>
    rw [StreamWork.repeatCell, h]
    have at' : (w.putCell b).slot.position = w.slot.position + 1 := rfl
    split
    · rename_i full
      have full : 1280 ≤ w.slot.position := by simpa using full
      have stays : min 1280 (w.slot.position + (n + 1)) = w.slot.position := by omega
      have none : min (n + 1) (1280 - w.slot.position) = 0 := by omega
      rw [stays, none, List.replicate_zero, StreamWork.write_nil, StreamWork.moveTo_self h]
    · rename_i room
      have room : w.slot.position < 1280 := by simpa using room
      have more : min (n + 1) (1280 - w.slot.position) = min n (1280 - (w.slot.position + 1)) + 1 := by omega
      rw [ih rfl (by omega), at', StreamWork.putCell_eq, more, List.replicate_succ, Nat.add_right_comm, Nat.add_assoc]
      exact w.write_write [b] _ rfl (by omega)

/-- R35: MARK_OPEN closes an open mark, and opens one. -/
theorem StreamWork.markOpen_eq (w : StreamWork) (c : MarkClass) : w.markOpen c = { w with
    slot := { w.slot with
      openMark := some ⟨c, w.slot.position / 40, w.slot.position % 40⟩
      dropped := (w.slot.closing w.marks (w.slot.position % 40)).2 }
    marks := (w.slot.closing w.marks (w.slot.position % 40)).1 } := by
  rw [StreamWork.markOpen, StreamWork.markClose, StreamWork.closeMark_eq]; rfl

/-- R38: a byte of a RAW stream, in which no mark is open. -/
theorem StreamWork.rawByte_eq {w : StreamWork} (b : Byte) (h : w.slot.openMark = none) :
    w.rawByte b = w.write [b] (w.slot.position + 1) := by
  have none : w.slot.leaving w.marks (w.slot.position + 1) = (w.slot.openMark, w.marks, w.slot.dropped) := by
    rw [LoadSlot.leaving, LoadSlot.closing, h, ite_self]
  rw [StreamWork.write_eq, none]; rfl

end Sys2Proof.Machine
end

section
/-! SUPPORT. The stores in canonical form and within their bounds, and the mark lists (R35, R36, R49, R50). -/

namespace Sys2Proof.Machine

/-! ### Stores -/

/-- A store in canonical form that lists addresses below a bound. -/
def StoreSound {α : Type} [DecidableEq α] (dflt : α) (bound : Nat) (m : List (Nat × α)) : Prop :=
  storeWf dflt m = true ∧ ∀ c ∈ m, c.1 < bound

section
variable {α : Type} [DecidableEq α] {dflt : α} {bound : Nat} {m : List (Nat × α)}

theorem StoreSound.nil : StoreSound dflt bound [] := ⟨rfl, by simp⟩

theorem StoreSound.write (h : StoreSound dflt bound m) {a : Nat} (ha : a < bound) (v : α) :
    StoreSound dflt bound (storeWrite dflt m a v) := by
  refine ⟨storeWrite_wf _ _ _ _ h.1, fun c hc => ?_⟩
  rcases mem_storeWrite _ _ _ _ _ hc with hc | ⟨rfl, -⟩
  · exact h.2 c hc
  · exact ha

theorem StoreSound.drop (h : StoreSound dflt bound m) (p : Nat → Bool) : StoreSound dflt bound (storeDrop p m) :=
  ⟨storeDrop_wf _ _ _ h.1, fun c hc => h.2 c (List.mem_filter.mp hc).1⟩

end

/-- R4: the frames' store. -/
abbrev FramesSound (m : List Host.Cell) : Prop := StoreSound (0#8) (48 * Config.frameBytes) m

theorem FramesSound.writeFrame {m : List Host.Cell} (h : FramesSound m) (i : Fin 48) {o : Nat} (ho : o < 1280) (b : Byte) :
    FramesSound (writeFrame m i o b) :=
  StoreSound.write h (by simp only [frameAddress, Config.frameBytes]; omega) b

theorem FramesSound.writeFrameRun (bytes : List Byte) {m : List Host.Cell} (h : FramesSound m) (i : Fin 48) {o : Nat}
    (ho : o + bytes.length ≤ 1280) : FramesSound (writeFrameRun m i o bytes) := by
  induction bytes generalizing m o with
  | nil => exact h
  | cons b rest ih =>
    rw [List.length_cons] at ho
    exact ih (h.writeFrame i (by omega) b) (by omega)

theorem FramesSound.clearFrame {m : List Host.Cell} (h : FramesSound m) (i : Fin 48) : FramesSound (clearFrame m i) :=
  StoreSound.drop h _

/-- R117: the store of attempt counts. -/
def PinField.AttemptsSound (p : PinField) : Prop := StoreSound 0 10240 p.attempts

theorem PinField.AttemptsSound.setAttempt {p : PinField} (h : p.AttemptsSound) (r : Fin 128) (c : Fin 80) (n : Nat) :
    (p.setAttempt r c n).AttemptsSound :=
  StoreSound.write h (by simp only [pinIndex]; omega) n

theorem PinField.AttemptsSound.clear {p : PinField} (h : p.AttemptsSound) (sel : FaultSelector) :
    (p.clear sel).AttemptsSound :=
  StoreSound.drop h fun a => (p.faults.filter sel.selects).any fun f => pinIndex f.row f.col == a

/-- R119, R120: a moved pin changes its own attempt count alone. -/
theorem ResultTally.move_attempts (r : Fin 128) (sensed : PinRow) {x : ResultTally}
    (h : x.pins.AttemptsSound) (m : Move) : (x.move r sensed m).pins.AttemptsSound := by
  unfold ResultTally.move
  simp only
  split_ifs
  · exact h.setAttempt _ _ _
  · exact h
  · exact h.setAttempt _ _ _
  · unfold ResultTally.stuck
    simp only
    split
    · exact h.setAttempt _ _ _
    · exact h.setAttempt _ _ _

/-! ### Mark lists -/

/-- R49, R50: a list of at most 8 marks, no two alike, each within its line; of a LOADING entry they are SUPPLIED. -/
abbrev MarksFit (loading : Prop) (marks : List Mark) : Prop :=
  marks.length ≤ 8 ∧ marks.Nodup ∧ (∀ m ∈ marks, m.InLine) ∧ (loading → ∀ m ∈ marks, m.owner = .supplied)

section
variable {loading : Prop} {marks : List Mark}

theorem MarksFit.nil : MarksFit loading [] := ⟨by simp, List.nodup_nil, by simp, by simp⟩

theorem MarksFit.filter (h : MarksFit loading marks) (p : Mark → Bool) : MarksFit loading (marks.filter p) :=
  ⟨(List.length_filter_le _ _).trans h.1, h.2.1.filter _, fun m hm => h.2.2.1 m (List.mem_of_mem_filter hm),
    fun hl m hm => h.2.2.2 hl m (List.mem_of_mem_filter hm)⟩

/-- A list that was a LOADING entry's, or not, may become that of an entry that is not. -/
theorem MarksFit.mono (h : MarksFit loading marks) {loading' : Prop} (weaker : loading' → loading) : MarksFit loading' marks :=
  ⟨h.1, h.2.1, h.2.2.1, h.2.2.2 ∘ weaker⟩

/-- R36, R53: a mark that the list does not hold is appended while there is room. -/
theorem MarksFit.append (h : MarksFit loading marks) {m : Mark} (new : m ∉ marks) (room : marks.length < 8)
    (inLine : m.InLine) (supplied : loading → m.owner = .supplied) : MarksFit loading (marks ++ [m]) := by
  obtain ⟨-, nodup, within, owners⟩ := h
  refine ⟨by simpa using room, nodup.append (List.nodup_singleton m) (by simpa using new), fun x hx => ?_, fun hl x hx => ?_⟩
  · rcases List.mem_append.mp hx with hx | hx
    · exact within x hx
    · rw [List.mem_singleton.mp hx]; exact inLine
  · rcases List.mem_append.mp hx with hx | hx
    · exact owners hl x hx
    · rw [List.mem_singleton.mp hx]; exact supplied hl

/-- R36: a closed mark that ends within its line is offered. -/
theorem MarksFit.offered (h : MarksFit loading marks) (dropped : Nat) {m : Mark} (ends : m.first + m.length ≤ 40)
    (supplied : m.owner = .supplied) : MarksFit loading (offered marks dropped m).1 := by
  unfold Machine.offered
  split_ifs with h1 h2
  · exact h
  · exact h
  · rw [not_or] at h1
    exact h.append h1.2 (by omega) ⟨by omega, ends⟩ fun _ => supplied

/-- R56: a toggled mark is taken out, or appended. -/
theorem MarksFit.toggleMark (h : MarksFit loading marks) {m : Mark} {out : List Mark} (inLine : m.InLine)
    (supplied : loading → m.owner = .supplied) (e : toggleMark marks m = some out) : MarksFit loading out := by
  unfold Machine.toggleMark at e
  split_ifs at e with hm room
  · cases e; exact h.filter _
  · cases e
    exact h.append (by simpa using hm) room inLine supplied

/-- R44: the patron marks of a replaced entry follow SUPPLIED marks while there is room. -/
theorem MarksFit.carried {old : List Mark} (h : MarksFit True marks) {loading' : Prop} (ho : MarksFit loading' old) :
    MarksFit False (marks ++ (carriedMarks marks old).1) := by
  obtain ⟨count, nodup, within, owners⟩ := h
  have patron : ∀ m ∈ (carriedMarks marks old).1, m ∈ old ∧ m.owner = .patron := fun m hm => by
    have := List.mem_filter.mp (List.mem_of_mem_take hm)
    exact ⟨this.1, by simpa using this.2⟩
  refine ⟨?_, nodup.append ((ho.2.1.filter _).sublist (List.take_sublist _ _)) fun m hm hc => ?_, fun m hm => ?_, nofun⟩
  · have := List.length_take_le (Config.maxMarks - marks.length) (old.filter fun m => m.owner == .patron)
    simp only [List.length_append, carriedMarks, Config.maxMarks] at this ⊢
    omega
  · have := owners trivial m hm
    rw [(patron m hc).2] at this
    cases this
  · rcases List.mem_append.mp hm with hm | hm
    · exact within m hm
    · exact ho.2.2.1 m (patron m hm).1

end

/-- R49, R52: a mark that is read lies within its line. -/
theorem readMark_inLine {cls line first length : Byte} {m : Mark} (h : readMark cls line first length = some m) :
    m.InLine := by
  obtain ⟨-, -, -, one, ends⟩ := readMark_some h
  unfold readMark at h
  split at h
  · split at h <;> cases h
    exact ⟨one, ends⟩
  · cases h

theorem offered_dropped_le (marks : List Mark) {dropped : Nat} (h : dropped ≤ 255) (m : Mark) :
    (offered marks dropped m).2 ≤ 255 := by
  unfold offered
  split_ifs
  · exact h
  · exact Nat.min_le_left _ _
  · exact h

end Sys2Proof.Machine
end

section
/-! SUPPORT. Every byte of a stream keeps its record, the mark list and the frames sound (R22, R28 to R38). -/

namespace Sys2Proof.Machine

/-- What a stream keeps between two bytes; `loading` says that its entry is LOADING. -/
structure StreamWork.Sound (loading : Prop) (w : StreamWork) : Prop where
  slot : w.slot.Sound
  marks : MarksFit loading w.marks
  frames : FramesSound w.frames

/-! ### Records -/

theorem LoadSlot.Sound.ends {r : LoadSlot} (h : r.Sound) : r.complete = decide (1280 ≤ r.position) := by
  obtain ⟨le, complete, -⟩ := h
  rw [complete, decide_eq_decide]
  simp only [Config.frameBytes] at le ⊢
  omega

theorem LoadSlot.Sound.below {r : LoadSlot} (h : r.Sound) (isOpen : r.complete = false) : r.position < 1280 := by
  have ends := h.ends
  rw [isOpen] at ends
  simpa using ends.symm

/-- R34: an open TEXT stream may take any state between two bytes. -/
theorem LoadSlot.Sound.setText {r : LoadSlot} (h : r.Sound) (t : TextState)
    (isOpen : t = .plain ∨ (r.complete = false ∧ r.kind = .text)) : ({ r with text := t } : LoadSlot).Sound := by
  obtain ⟨le, complete, ended, raw, dropped, opened⟩ := h
  refine ⟨le, complete, fun hc => ?_, fun hk => ?_, dropped, opened⟩
  · rcases isOpen with rfl | ⟨hn, -⟩
    · exact ⟨rfl, (ended hc).2⟩
    · rw [show r.complete = true from hc] at hn; cases hn
  · rcases isOpen with rfl | ⟨-, ht⟩
    · exact ⟨rfl, (raw hk).2⟩
    · rw [show r.kind = .raw from hk] at ht; cases ht

/-- R35: an open mark that is closed at a cell of its line leaves the list and the dropped count sound. -/
theorem LoadSlot.Sound.closing {r : LoadSlot} {loading : Prop} {marks : List Mark} (h : r.Sound)
    (fit : MarksFit loading marks) {cell : Nat} (le : r.position % 40 ≤ cell) (within : cell ≤ 40) :
    MarksFit loading (r.closing marks cell).1 ∧ (r.closing marks cell).2 ≤ 255 := by
  obtain ⟨-, -, -, -, dropped, opened⟩ := h
  unfold LoadSlot.closing
  split
  · exact ⟨fit, dropped⟩
  · rename_i o ho
    have at' : o.cell ≤ r.position % 40 := (opened o ho).2
    exact ⟨fit.offered _ (by simp only; omega) rfl, offered_dropped_le _ dropped _⟩

/-- R28, R36, R37: a move of an open TEXT stream with no element begun. -/
theorem LoadSlot.Sound.leaving {r : LoadSlot} {loading : Prop} {marks : List Mark} (h : r.Sound)
    (fit : MarksFit loading marks) (plain : r.text = .plain) (isOpen : r.complete = false) {next : Nat}
    (le : r.position ≤ next) (onPage : next ≤ 1280) :
    ({ r with
      position := next
      complete := decide (1280 ≤ next)
      openMark := (r.leaving marks next).1
      dropped := (r.leaving marks next).2.2 } : LoadSlot).Sound ∧ MarksFit loading (r.leaving marks next).2.1 := by
  have below := h.below isOpen
  have closed := h.closing fit (Nat.le_of_lt (Nat.mod_lt _ (by decide))) (Nat.le_refl 40)
  obtain ⟨-, -, -, raw, dropped, opened⟩ := h
  have ends : decide (1280 ≤ next) = decide (next = Config.frameBytes) := by
    rw [decide_eq_decide, Config.frameBytes]; omega
  unfold LoadSlot.leaving
  by_cases same : r.position / 40 = next / 40
  · rw [if_pos same]
    refine ⟨⟨onPage, ends, fun hc => ?_, raw, dropped, fun o ho => ?_⟩, fit⟩
    · have : 1280 ≤ next := of_decide_eq_true hc
      omega
    · obtain ⟨line, cell⟩ := opened o ho
      simp only [Config.cellsPerLine] at line cell ⊢
      omega
  · rw [if_neg same]
    exact ⟨⟨onPage, ends, fun _ => ⟨plain, rfl⟩, fun _ => ⟨plain, rfl⟩, closed.2, nofun⟩, closed.1⟩

/-! ### Streams -/

section
variable {loading : Prop} {w : StreamWork}

theorem StreamWork.Sound.ends (h : w.Sound loading) : w.Ends := h.slot.ends

theorem StreamWork.Sound.count (h : w.Sound loading) (n : Nat) : (w.count n).Sound loading :=
  ⟨h.slot, h.marks, h.frames⟩

theorem StreamWork.Sound.setText (h : w.Sound loading) (t : TextState)
    (isOpen : t = .plain ∨ (w.slot.complete = false ∧ w.slot.kind = .text)) : (w.setText t).Sound loading :=
  ⟨h.slot.setText t isOpen, h.marks, h.frames⟩

/-- R28, R31: a run of cells that ends on the page, and a move that is at least as far. -/
theorem StreamWork.Sound.write (h : w.Sound loading) (plain : w.slot.text = .plain) (isOpen : w.slot.complete = false)
    (cells : List Byte) {next : Nat} (le : w.slot.position + cells.length ≤ next) (onPage : next ≤ 1280) :
    (w.write cells next).Sound loading := by
  obtain ⟨slot, marks⟩ := h.slot.leaving h.marks plain isOpen (by omega : w.slot.position ≤ next) onPage
  rw [StreamWork.write_eq]
  exact ⟨slot, marks, FramesSound.writeFrameRun cells h.frames _ (by omega)⟩

theorem StreamWork.Sound.repeatCell (h : w.Sound loading) (plain : w.slot.text = .plain) (isOpen : w.slot.complete = false)
    (b : Byte) (n : Nat) : (w.repeatCell b n).Sound loading := by
  have below := h.slot.below isOpen
  rw [StreamWork.repeatCell_eq b n h.ends below.le]
  exact h.write plain isOpen _ (by rw [List.length_replicate]; omega) (by omega)

theorem StreamWork.Sound.skip (h : w.Sound loading) (plain : w.slot.text = .plain) (isOpen : w.slot.complete = false)
    (n : Nat) : (w.skip n).Sound loading := by
  have below := h.slot.below isOpen
  rw [StreamWork.skip_eq n h.ends below.le, ← StreamWork.write_nil]
  exact h.write plain isOpen _ (by rw [List.length_nil]; omega) (by omega)

/-- R35: an open mark is closed at the write position. -/
theorem StreamWork.Sound.markClose (h : w.Sound loading) : w.markClose.Sound loading := by
  obtain ⟨marks, dropped⟩ := h.slot.closing h.marks (Nat.le_refl _) (Nat.le_of_lt (Nat.mod_lt _ (by decide)))
  obtain ⟨le, complete, ended, raw, -, -⟩ := h.slot
  rw [StreamWork.markClose, StreamWork.closeMark_eq]
  exact ⟨⟨le, complete, fun hc => ⟨(ended hc).1, rfl⟩, fun hk => ⟨(raw hk).1, rfl⟩, dropped, nofun⟩, marks, h.frames⟩

theorem StreamWork.Sound.markOpen (h : w.Sound loading) (text : w.slot.kind = .text) (isOpen : w.slot.complete = false)
    (c : MarkClass) : (w.markOpen c).Sound loading := by
  obtain ⟨marks, dropped⟩ := h.slot.closing h.marks (Nat.le_refl _) (Nat.le_of_lt (Nat.mod_lt _ (by decide)))
  obtain ⟨le, complete, -, -, -, -⟩ := h.slot
  rw [StreamWork.markOpen_eq]
  refine ⟨⟨le, complete, fun hc => ?_, fun hk => ?_, dropped, fun o ho => ?_⟩, marks, h.frames⟩
  · rw [show w.slot.complete = true from hc] at isOpen; cases isOpen
  · rw [show w.slot.kind = .raw from hk] at text; cases text
  · obtain rfl := Option.some.inj ho
    exact ⟨rfl, Nat.le_refl _⟩

theorem StreamWork.Sound.begin (h : w.Sound loading) (text : w.slot.kind = .text) (isOpen : w.slot.complete = false)
    (a : ControlAction) : (w.begin a).Sound loading := by
  have plain := h.setText .plain (.inl rfl)
  have below := h.slot.below isOpen
  cases a with
  | lineEnd =>
    have at' : (w.setText .plain).slot.position = w.slot.position := rfl
    rw [StreamWork.begin, StreamWork.lineEnd_eq, at']
    exact plain.write rfl isOpen _ (by rw [List.length_replicate, at']; omega) (by omega)
  | pageEnd =>
    have at' : (w.setText .plain).slot.position = w.slot.position := rfl
    rw [StreamWork.begin, StreamWork.pageEnd_eq, at']
    exact plain.write rfl isOpen _ (by rw [List.length_replicate, at']; omega) (by omega)
  | repeatCell => exact h.setText _ (.inr ⟨isOpen, text⟩)
  | skip => exact h.setText _ (.inr ⟨isOpen, text⟩)
  | markOpen => exact h.setText _ (.inr ⟨isOpen, text⟩)
  | markClose => exact plain.markClose

/-- R28, R29, R34: one byte of a TEXT stream. -/
theorem StreamWork.Sound.textByte (h : w.Sound loading) (text : w.slot.kind = .text) (isOpen : w.slot.complete = false)
    {escape : Byte} {codes : List ControlEntry} {b : Byte} {w' : StreamWork}
    (e : w.textByte escape codes b = .ok w') : w'.Sound loading := by
  have plain := h.setText .plain (.inl rfl)
  have below := h.slot.below isOpen
  unfold StreamWork.textByte at e
  split at e
  · rename_i now
    split at e <;> cases e
    · exact h.setText _ (.inr ⟨isOpen, text⟩)
    · rw [StreamWork.putCell_eq]
      exact h.write now isOpen _ (by simp) below
  · split at e
    · cases e
      rw [StreamWork.putCell_eq]
      exact plain.write rfl isOpen _ (by simp) below
    · split at e <;> cases e
      exact h.begin text isOpen _
  · cases e; exact h.setText _ (.inr ⟨isOpen, text⟩)
  · cases e; exact plain.repeatCell rfl isOpen _ _
  · cases e; exact plain.skip rfl isOpen _
  · split at e <;> cases e
    exact plain.markOpen text isOpen _

/-- R27: one byte of a stream of either kind. -/
theorem StreamWork.Sound.byte (h : w.Sound loading) (isOpen : w.slot.complete = false) {escape : Byte}
    {codes : List ControlEntry} {b : Byte} {w' : StreamWork} (e : w.byte escape codes b = .ok w') : w'.Sound loading := by
  have counted := h.count 1
  unfold StreamWork.byte at e
  simp only at e
  split at e
  · rename_i text
    exact counted.textByte text isOpen e
  · rename_i isRaw
    cases e
    obtain ⟨plain, closed⟩ := h.slot.2.2.2.1 isRaw
    change ((w.count 1).rawByte b).Sound loading
    rw [StreamWork.rawByte_eq (w := w.count 1) b closed]
    exact counted.write plain isOpen _ (by simp) (h.slot.below isOpen)

/-- R42: the implicit end of a stream keeps it sound. -/
theorem StreamWork.Sound.implicitEnd (h : w.Sound loading) : w.implicitEnd.1.Sound loading := by
  unfold StreamWork.implicitEnd
  split
  · exact h
  · exact (h.setText .plain (.inl rfl)).markClose

end

/-- R27: the bytes of a DATA. -/
theorem decodeBytes_sound {loading : Prop} (escape : Byte) (codes : List ControlEntry) (bytes : List Byte) {w : StreamWork}
    (h : w.Sound loading) (n : Nat) : (decodeBytes escape codes w n bytes).work.Sound loading := by
  induction bytes generalizing w n with
  | nil => exact h
  | cons b rest ih =>
    unfold decodeBytes
    split
    · exact h
    · rename_i isOpen
      split
      · rename_i w' e
        exact ih (h.byte (by simpa using isOpen) e) _
      · exact h

end Sys2Proof.Machine
end

section
/-! SUPPORT. What the pin path cannot reach: whatever the drive, the calendar, the zones' hold timers and a posting leave
alone, planning and the visits of the calendar leave alone too (R137 to R142, R155 to R160). -/

namespace Sys2Proof.Machine

/-- A reading of the state that the drive, the calendar, the touch unit and a posting do not change. -/
structure OffDrive {α : Type} (f : State → α) : Prop where
  setDrive : ∀ s x, f (State.setDrive s x) = f s
  setCal : ∀ s x, f (State.setCal s x) = f s
  setTouch : ∀ s x, f (State.setTouch s x) = f s
  post : ∀ s n, f (State.post s n) = f s

namespace OffDrive

variable {α : Type} {f : State → α}

theorem startStroke (h : OffDrive f) (s : State) (p : Plan) : f (s.startStroke p) = f s := by
  rw [State.startStroke, h.setCal, h.setDrive]

theorem holdPlan (h : OffDrive f) (s : State) (p : Plan) : f (s.holdPlan p) = f s := by
  unfold State.holdPlan
  split
  · exact h.startStroke s p
  · exact h.setDrive _ _

theorem askDrive (h : OffDrive f) (s : State) (r : Fin 128) : f (s.askDrive r).1 = f s := by
  have reported : f (s.reportDeferred r) = f s := h.setTouch _ _
  unfold State.askDrive
  simp only
  split
  · exact (h.setDrive _ _).trans reported
  · exact (h.holdPlan _ _).trans reported

theorem requestSurvey (h : OffDrive f) (s : State) : f s.requestSurvey = f s := by
  unfold State.requestSurvey
  split
  · exact h.holdPlan _ _
  · rfl

theorem endVisit (h : OffDrive f) (s : State) (v : LineVisit) : f (s.endVisit v).1 = f s := by
  unfold State.endVisit
  simp only
  generalize (if v.started then s.cal.quiet else joinQuiet s.cal.quiet v.line) = quiet
  split
  · exact (h.post _ _).trans ((h.setCal _ _).trans (h.setCal _ _))
  · exact h.setCal _ _

theorem rowDone (h : OffDrive f) (s : State) (v : LineVisit) : f (s.rowDone v).1 = f s := by
  unfold State.rowDone
  split
  · exact h.endVisit s v
  · exact h.setCal _ _

theorem calendarMove (h : OffDrive f) (s : State) : f s.calendarMove.1 = f s := by
  unfold State.calendarMove
  split
  · exact h.setCal _ _
  · rename_i v _
    have asked := h.askDrive s (pinRow v.line v.row)
    split
    · rename_i t e; rwa [e] at asked
    · rename_i t e; rw [e] at asked; exact (h.rowDone t v).trans asked

theorem runCalendar (h : OffDrive f) (n : Nat) (s : State) : f (State.runCalendar n s) = f s := by
  induction n generalizing s with
  | zero => rfl
  | succ n ih =>
    have moved := h.calendarMove s
    unfold State.runCalendar
    split
    · rename_i t e; rw [e] at moved; exact (ih t).trans moved
    · rename_i t e; rwa [e] at moved

theorem goOn (h : OffDrive f) (r : State × Bool) : f (State.goOn r) = f r.1 := by
  obtain ⟨t, b⟩ := r
  cases b
  · rfl
  · exact h.runCalendar _ t

theorem driveOn (h : OffDrive f) (s : State) : f s.driveOn = f s := (h.runCalendar _ _).trans (h.setCal _ _)

theorem wake (h : OffDrive f) (s : State) : f s.wake = f s := by
  unfold State.wake
  split
  · exact h.setCal _ _
  · exact h.driveOn s
  · rfl

theorem rowNothing (h : OffDrive f) (s : State) : f s.rowNothing = f s := by
  unfold State.rowNothing
  split
  · exact (h.goOn _).trans (h.rowDone _ _)
  · exact h.runCalendar _ _
  · rfl

theorem reform (h : OffDrive f) (s : State) (rows : Fin 128 → Bool) : f (s.reform rows) = f s := by
  unfold State.reform
  split
  · split
    · rename_i p _ _
      have asked := h.askDrive s p.row
      split
      · rename_i t e; rwa [e] at asked
      · rename_i t e; rw [e] at asked; exact (h.rowNothing t).trans asked
    · rfl
  · rfl

theorem startIfCharged (h : OffDrive f) (s : State) : f s.startIfCharged = f s := by
  unfold State.startIfCharged
  split
  · split
    · exact h.startStroke s _
    · rfl
  · rfl

/-- R145, R158, R161: what the Row Calendar does at a completion. -/
theorem strokeDone (h : OffDrive f) (s : State) : f s.strokeDone = f s := by
  have counted : f (match s.cal.visit with | some v => s.countStroke v | none => (s, true)).1 = f s := by
    split
    · unfold State.countStroke
      split
      · exact h.setCal _ _
      · exact h.rowDone _ _
    · rfl
  unfold State.strokeDone
  split
  · unfold State.completeDriving
    simp only
    split
    · exact (h.setCal _ _).trans counted
    · exact (h.goOn _).trans counted
  · unfold State.completeSurveying
    split
    · split
      · exact h.setCal _ _
      · exact h.requestSurvey s
    · split
      · exact (h.post _ _).trans (h.setCal _ _)
      · exact (h.driveOn _).trans ((h.post _ _).trans (h.setCal _ _))
  · rfl

/-- R164, R165: the scheduler takes up its work. -/
theorem takeUp (h : OffDrive f) (s : State) {announce : State → State} (announced : ∀ u, f (announce u) = f u) :
    f (s.takeUp announce) = f s := by
  unfold State.takeUp
  split
  · exact (h.requestSurvey _).trans ((announced _).trans (h.setCal _ _))
  · exact (h.driveOn _).trans ((announced _).trans (h.setCal _ _))

end OffDrive

/-! ### Recomposition -/

/-- R109: of a recomposition what lies off the drive sees the new targets and the dropped attempt counts alone. -/
theorem OffDrive.recompose {α : Type} {f : State → α} (h : OffDrive f) (s : State) (lines : List (Fin 32)) :
    f (s.recompose lines) = f ((s.setComp { s.comp with
      target := s.newTarget lines, markPins := s.newMarkPins lines }).setPins { s.pins with
        attempts := storeDrop (pinChanged (s.targetChanges (s.newTarget lines))) s.pins.attempts }) := by
  unfold State.recompose
  simp only
  split
  · rfl
  · exact (h.wake _).trans (h.reform _ _)

end Sys2Proof.Machine
end

section
/-! SUPPORT. The contents of entries, slots and stores are sound: what every shared operation keeps. -/

namespace Sys2Proof.Machine

/-- R22, R35, R36, R49, R50: mark lists, load records and stores are sound. -/
structure State.Contents (s : State) : Prop where
  entries : ∀ i : Fin 48, MarksFit (s.dir.entries[i].state = .loading) s.dir.entries[i].marks
  slots : ∀ i : Fin 2, ∀ r ∈ s.load.slots[i], r.Sound
  frames : FramesSound s.dir.frames
  attempts : s.pins.AttemptsSound

theorem State.contents_iff (s : State) : s.Contents ↔ s.MarksSound ∧ s.StoresCanonical :=
  ⟨fun ⟨e, l, f, a⟩ => ⟨⟨e, l⟩, f.1, a.1, f.2, a.2⟩, fun ⟨⟨e, l⟩, f, a, f', a'⟩ => ⟨e, l, ⟨f, f'⟩, ⟨a, a'⟩⟩⟩

/-- The blocks that hold what `Contents` speaks of. -/
def State.holders (s : State) : Directory × Decoder × PinField := (s.dir, s.load, s.pins)

theorem State.holders_offDrive : OffDrive State.holders :=
  ⟨fun _ _ => rfl, fun _ _ => rfl, fun _ _ => rfl, fun _ _ => by simp [State.holders]⟩

namespace State.Contents

variable {s t : State}

theorem congr (h : s.Contents) (same : t.holders = s.holders) : t.Contents := by
  simp only [State.holders, Prod.mk.injEq] at same
  obtain ⟨dir, load, pins⟩ := same
  exact ⟨by rw [dir]; exact h.entries, by rw [load]; exact h.slots, by rw [dir]; exact h.frames, by rw [pins]; exact h.attempts⟩

/-! ### One block replaced -/

theorem setLink (h : s.Contents) (x : Link) : (s.setLink x).Contents := h.congr rfl
theorem setSweep (h : s.Contents) (x : Option SweepRun) : (s.setSweep x).Contents := h.congr rfl
theorem setNav (h : s.Contents) (x : Navigation) : (s.setNav x).Contents := h.congr rfl
theorem setComp (h : s.Contents) (x : Compositor) : (s.setComp x).Contents := h.congr rfl
theorem setDrive (h : s.Contents) (x : Drive) : (s.setDrive x).Contents := h.congr rfl
theorem setCal (h : s.Contents) (x : Calendar) : (s.setCal x).Contents := h.congr rfl
theorem setTouch (h : s.Contents) (x : Touch) : (s.setTouch x).Contents := h.congr rfl
theorem post (h : s.Contents) (n : Notice) : (s.post n).Contents := h.congr (State.holders_offDrive.post s n)
theorem postDrive (h : s.Contents) : s.postDrive.Contents := h.post _

theorem setPins (h : s.Contents) {x : PinField} (attempts : x.AttemptsSound) : (s.setPins x).Contents :=
  ⟨h.entries, h.slots, h.frames, attempts⟩

theorem setDir (h : s.Contents) {d : Directory}
    (entries : ∀ i : Fin 48, MarksFit (d.entries[i].state = .loading) d.entries[i].marks) (frames : FramesSound d.frames) :
    (s.setDir d).Contents := ⟨entries, h.slots, frames, h.attempts⟩

theorem setLoad (h : s.Contents) {d : Decoder} (slots : ∀ i : Fin 2, ∀ r ∈ d.slots[i], r.Sound) : (s.setLoad d).Contents :=
  ⟨h.entries, slots, h.frames, h.attempts⟩

theorem setSlot (h : s.Contents) (i : Fin 2) {x : Option LoadSlot} (sound : ∀ r ∈ x, r.Sound) :
    (s.setLoad (s.load.setSlot i x)).Contents := by
  refine h.setLoad fun j => ?_
  rw [Decoder.setSlot_slot]
  split
  · exact sound
  · exact h.slots j

/-- Entry `i` becomes `e` and the other entries stay, whatever becomes of the queue. -/
theorem entry (h : s.Contents) {d : Directory} {i : Fin 48} {e : Entry} (fit : MarksFit (e.state = .loading) e.marks)
    (entries : ∀ j : Fin 48, d.entries[j] = if j = i then e else s.dir.entries[j]) (frames : d.frames = s.dir.frames) :
    (s.setDir d).Contents := by
  refine h.setDir (fun j => ?_) (by rw [frames]; exact h.frames)
  rw [entries]
  split
  · exact fit
  · exact h.entries j

theorem free (h : s.Contents) (i : Fin 48) : (s.setDir (s.dir.freeEntry i)).Contents :=
  h.entry (i := i) .nil (fun _ => Directory.freeEntry_entry _ _ _) rfl

/-- An entry takes another state, LOADING apart, and keeps its marks; so do all of them. -/
theorem states (h : s.Contents) {d : Directory} (marks : ∀ j : Fin 48, d.entries[j].marks = s.dir.entries[j].marks)
    (state : ∀ j : Fin 48, d.entries[j].state = .loading → s.dir.entries[j].state = .loading)
    (frames : d.frames = s.dir.frames) : (s.setDir d).Contents :=
  h.setDir (fun j => by rw [marks]; exact (h.entries j).mono (state j)) (by rw [frames]; exact h.frames)

/-- R53, R55, R56: a list that an entry's may become. -/
theorem setMarks (h : s.Contents) (i : Fin 48) {marks : List Mark}
    (fit : MarksFit (s.dir.entries[i].state = .loading) marks) : (s.setDir (s.dir.setMarks i marks)).Contents :=
  h.entry (i := i) fit (fun _ => Directory.setEntry_entry _ _ _ _) rfl

/-! ### The pin path -/

theorem offDrive (h : s.Contents) (same : ∀ {α : Type} {f : State → α}, OffDrive f → f t = f s) : t.Contents :=
  h.congr (same State.holders_offDrive)

theorem reform (h : s.Contents) (rows : Fin 128 → Bool) : (s.reform rows).Contents := h.offDrive fun f => f.reform s rows
theorem wake (h : s.Contents) : s.wake.Contents := h.offDrive fun f => f.wake s
theorem driveOn (h : s.Contents) : s.driveOn.Contents := h.offDrive fun f => f.driveOn s
theorem requestSurvey (h : s.Contents) : s.requestSurvey.Contents := h.offDrive fun f => f.requestSurvey s
theorem startIfCharged (h : s.Contents) : s.startIfCharged.Contents := h.offDrive fun f => f.startIfCharged s
theorem strokeDone (h : s.Contents) : s.strokeDone.Contents := h.offDrive fun f => f.strokeDone s

/-- R109: a recomposition drops attempt counts. -/
theorem recompose (h : s.Contents) (lines : List (Fin 32)) : (s.recompose lines).Contents :=
  (setPins (x := { s.pins with attempts := storeDrop _ s.pins.attempts }) (h.setComp _)
    (StoreSound.drop h.attempts _)).congr (State.holders_offDrive.recompose s lines)

theorem tellLines (h : s.Contents) (i : Fin 48) (lines : List (Fin 32)) : (s.tellLines i lines).Contents := by
  unfold State.tellLines
  split
  · exact h.recompose lines
  · exact h

theorem tellCondition (h : s.Contents) (before : NavCondition) : (s.tellCondition before).Contents := by
  unfold State.tellCondition
  split
  · exact h.recompose _
  · exact h

/-! ### Navigation (R67 to R77) -/

theorem showEntry (h : s.Contents) (i : Fin 48) : (s.showEntry i).Contents := by
  unfold State.showEntry
  split
  · exact h
  · rename_i hidden
    have entry := Directory.showEntry_entry hidden
    refine (h.states (fun j => ?_) (fun j => ?_) (Directory.showEntry_frames _ _)).recompose _
    · rw [entry]
      split_ifs with hj
      · rw [hj]
      · rfl
      · rfl
    · rw [entry]
      split_ifs
      · exact nofun
      · exact nofun
      · exact id

theorem captureMiss (h : s.Contents) (k : Key) : (s.captureMiss k).Contents := by
  unfold State.captureMiss
  split
  · exact h
  · exact (h.setNav _).post _

theorem evaluate (h : s.Contents) (cause : ShownCause) : (s.evaluate cause).Contents := by
  unfold State.evaluate
  split
  · exact h
  · refine tellCondition ?_ _
    split
    · exact ((h.showEntry _).setNav _).post _
    · exact h.setNav _
    · exact h.setNav _
    · exact (h.setNav _).captureMiss _

theorem mayEvaluate (h : s.Contents) (b : Bool) (cause : ShownCause) : (if b then s.evaluate cause else s).Contents := by
  split
  · exact h.evaluate cause
  · exact h

theorem maySetNav (h : s.Contents) (b : Bool) (n : Navigation) : (if b then s.setNav n else s).Contents := by
  split
  · exact h.setNav n
  · exact h

theorem wantPage (h : s.Contents) (page : BitVec 16) (cause : ShownCause) : (s.wantPage page cause).Contents :=
  (h.setNav _).evaluate cause

theorem loadEnded (h : s.Contents) (k : Key) : (s.loadEnded k).Contents := h.mayEvaluate _ _
theorem keyReleased (h : s.Contents) (k : Key) : (s.keyReleased k).Contents := h.mayEvaluate _ _
theorem keyCommitted (h : s.Contents) (k : Key) : (s.keyCommitted k).Contents := (h.maySetNav _ _).mayEvaluate _ _
theorem keyMoved (h : s.Contents) (before after : Key) (shown : Bool) : (s.keyMoved before after shown).Contents :=
  ((h.maySetNav _ _).maySetNav _ _).mayEvaluate _ _

theorem tellReleased (keys : List Key) (h : s.Contents) : (s.tellReleased keys).Contents := by
  induction keys generalizing s with
  | nil => exact h
  | cons k rest ih => exact ih (h.keyReleased k)

/-! ### Presses of the patron keys (R56, R64, R69, R70) -/

theorem pageStep (h : s.Contents) (next : BitVec 16 → BitVec 16) : (s.pageStep next).Contents := by
  unfold State.pageStep
  split
  · exact h
  · split_ifs
    · exact h
    · exact h
    · exact h.wantPage _ _

theorem seek (h : s.Contents) : s.seek.Contents := by
  unfold State.seek
  split
  · exact h
  · split
    · exact h
    · split
      · exact h.wantPage _ _
      · exact h

theorem markPress (h : s.Contents) : s.markPress.Contents := by
  unfold State.markPress
  split
  · exact h
  · rename_i i shown
    have notLoading : ¬ s.dir.entries[i].state = .loading := by rw [Directory.shownEntry_some shown]; nofun
    simp only
    split
    · exact h
    · split
      · exact h
      · rename_i marks toggled
        refine (h.setMarks i ?_).tellLines _ _
        exact (h.entries i).toggleMark (m := patronBookmark s.touch.band) ⟨(by decide : 1 ≤ 40), (by decide : 0 + 40 ≤ 40)⟩
          (fun hl => absurd hl notLoading) toggled

theorem pressKeys (keys : List PatronKey) (h : s.Contents) : (s.pressKeys keys).Contents := by
  induction keys generalizing s with
  | nil => exact h
  | cons k rest ih =>
    refine ih ?_
    cases k with
    | prev => exact (h.post _).pageStep _
    | next => exact (h.post _).pageStep _
    | mark => exact (h.post _).markPress
    | seek => exact (h.post _).seek
    | call => exact h.post _

theorem sample (h : s.Contents) (down : Vector Bool 5) : (s.sample down).Contents := (h.setNav _).pressKeys _

end State.Contents

end Sys2Proof.Machine
end

section
/-! SUPPORT. The contents of entries, slots and stores after each rule and each event. -/

namespace Sys2Proof.Machine

namespace State.Contents

variable {s t : State}

/-! ### The commands on entries and marks (R18 to R20, R53, R55) -/

theorem patchCellsRule (h : s.Contents) (p : List Byte) : (patchCellsRule p s).1.Contents := by
  unfold Machine.patchCellsRule
  split
  · rename_i first cells
    split
    · rename_i k cond line _ _ _
      split
      · rename_i fits
        split
        · exact h
        · rename_i i _
          have frames := FramesSound.writeFrameRun cells h.frames i (o := Config.cellsPerLine * line.val + first.toNat)
            (by simp only [Config.cellsPerLine]; omega)
          refine tellLines ?_ _ _
          refine h.setDir (fun j => ?_) frames
          change MarksFit ((s.dir.setEntry i _).entries[j].state = .loading) (s.dir.setEntry i _).entries[j].marks
          rw [Directory.setEntry_entry]
          split
          · exact h.entries i
          · exact h.entries j
      · exact h
    · exact h
  · exact h

theorem retireRule (h : s.Contents) (p : List Byte) : (retireRule p s).1.Contents := by
  unfold Machine.retireRule
  split
  · split
    · split
      · exact h
      · exact h.free _
    · exact h
  · exact h

theorem setEntryRule (h : s.Contents) (p : List Byte) : (setEntryRule p s).1.Contents := by
  unfold Machine.setEntryRule
  split
  · split
    · rename_i pinned group _ _ _
      split
      · exact h
      · rename_i i _
        exact h.entry (i := i) (e := { s.dir.entries[i] with pinned := pinned, group := group }) (h.entries i)
          (fun _ => Directory.assign_entry _ _ _ _ _) (Directory.setPinned_frames _ _ _)
    · exact h
  · exact h

theorem addMarkRule (h : s.Contents) (p : List Byte) : (addMarkRule p s).1.Contents := by
  unfold Machine.addMarkRule
  split
  · split
    · rename_i mark
      split
      · exact h
      · rename_i i checked
        simp only
        split_ifs with present room
        · exact h
        · refine (h.setMarks i ?_).tellLines _ _
          exact (h.entries i).append (by simpa using present) room (readMark_inLine mark) fun loading =>
            absurd loading (Entry.visible_ne_loading (State.checkEntry_visible checked))
        · exact h
    · exact h
  · exact h

theorem dropMarksRule (h : s.Contents) (p : List Byte) : (dropMarksRule p s).1.Contents := by
  unfold Machine.dropMarksRule
  split
  · split
    · split
      · exact h
      · rename_i i _
        simp only
        split
        · exact h
        · exact (h.setMarks i ((h.entries i).filter _)).tellLines _ _
    · exact h
  · exact h

/-! ### Loads (R24 to R46) -/

theorem openLoadRule (h : s.Contents) (p : List Byte) : (openLoadRule p s).1.Contents := by
  unfold Machine.openLoadRule
  split
  · exact h
  · split
    · exact h
    · split
      · exact h
      · split
        · exact h
        · rename_i a _ _ _ slot _ _ i _ _
          have opened : (s.setDir (s.dir.openEntry i slot a)).Contents := by
            refine h.setDir (fun j => ?_) (h.frames.clearFrame i)
            rw [Directory.openEntry_entry]
            split
            · exact .nil
            · exact h.entries j
          refine opened.setSlot slot fun r hr => ?_
          obtain rfl := Option.some.inj hr
          exact ⟨Nat.zero_le _, rfl, nofun, fun _ => ⟨rfl, rfl⟩, Nat.zero_le _, nofun⟩

/-- R27: the work on a slot's stream is sound. -/
theorem streamWork (h : s.Contents) {i : Fin 2} {r : LoadSlot} (filled : s.load.slots[i] = some r) :
    (s.streamWork r).Sound (s.dir.entries[r.entry].state = .loading) :=
  ⟨h.slots i r filled, h.entries r.entry, h.frames⟩

/-- R27: sound work is put back. -/
theorem storeWork (h : s.Contents) {w : StreamWork} (i : Fin 2)
    (sound : w.Sound (s.dir.entries[w.slot.entry].state = .loading)) : (s.storeWork i w).Contents := by
  have stored : (s.setLoad (s.load.setSlot i (some w.slot))).Contents := h.setSlot i fun r hr => by
    obtain rfl := Option.some.inj hr
    exact sound.slot
  refine stored.setDir (fun j => ?_) sound.frames
  change MarksFit ((s.dir.setEntry w.slot.entry _).entries[j].state = .loading) (s.dir.setEntry w.slot.entry _).entries[j].marks
  rw [Directory.setEntry_entry]
  split
  · exact sound.marks
  · exact h.entries j

theorem dropLoad (h : s.Contents) (i : Fin 2) (r : LoadSlot) : (s.dropLoad i r).Contents :=
  (h.setSlot i (x := none) nofun).free r.entry

theorem fatalStream (h : s.Contents) (i : Fin 2) (r : LoadSlot) (e : StreamError) (offset : Nat) :
    (s.fatalStream i r e offset).Contents := ((h.dropLoad i r).post _).loadEnded _

theorem dataRule (h : s.Contents) (p : List Byte) : (dataRule p s).1.Contents := by
  unfold Machine.dataRule
  split
  · exact h
  · split
    · exact h
    · split
      · exact h
      · split
        · exact h
        · rename_i bytes _ i _ _ _ r filled
          split
          · exact h
          · have sound := decodeBytes_sound s.load.escape s.load.codes.toList bytes (h.streamWork filled) 0
            have goes := decodeBytes_goes s.load.escape s.load.codes.toList bytes (s.streamWork r) 0
            have stored : ∀ w, w = (decodeBytes s.load.escape s.load.codes.toList (s.streamWork r) 0 bytes).work →
                (s.storeWork i w).Contents := by
              rintro _ rfl
              refine h.storeWork i ?_
              simp only [goes.entry]
              exact sound
            split
            · rename_i e
              exact stored _ (by rw [e]; rfl)
            · rename_i e
              exact (stored _ (by rw [e]; rfl)).fatalStream _ _ _ _

theorem cancelLoadRule (h : s.Contents) (p : List Byte) : (cancelLoadRule p s).1.Contents := by
  unfold Machine.cancelLoadRule
  split
  · split
    · exact h
    · split
      · exact h
      · exact (h.dropLoad _ _).loadEnded _
  · exact h

/-- R42 to R44: a COMMIT is taken. -/
theorem takeCommit (h : s.Contents) {i : Fin 2} {r : LoadSlot} (filled : s.load.slots[i] = some r)
    (loading : s.dir.entries[r.entry].state = .loading) : (s.takeCommit i r).1.Contents := by
  have idle : (s.setLoad (s.load.setSlot i none)).Contents := h.setSlot i nofun
  have marks := (h.streamWork filled).implicitEnd.marks
  unfold State.takeCommit
  simp only
  split
  · refine keyCommitted ?_ _
    exact idle.entry (i := r.entry) (marks.mono nofun) (fun _ => Directory.placeNew_entry _ _ _ _) (by simp)
  · rename_i v _
    refine keyCommitted ?_ _
    have replaced : ((s.setLoad (s.load.setSlot i none)).setDir (s.dir.replaceEntry r.entry v
        ((s.streamWork r).implicitEnd.1.marks ++
          (carriedMarks (s.streamWork r).implicitEnd.1.marks s.dir.entries[v].marks).1))).Contents := by
      refine idle.setDir (fun j => ?_) (by rw [Directory.replaceEntry_frames]; exact h.frames)
      rw [Directory.replaceEntry_entry]
      by_cases hv : j = v
      · rw [if_pos hv]; exact .nil
      · rw [if_neg hv]
        by_cases hr : j = r.entry
        · rw [if_pos hr]
          refine ((marks.mono fun _ => loading).carried (h.entries v)).mono ?_
          simp only
          split <;> nofun
        · rw [if_neg hr]; exact h.entries j
    split
    · exact replaced.recompose _
    · exact replaced

theorem commitRule (h : s.Contents) (agree : s.PagesAgree) (p : List Byte) : (commitRule p s).1.Contents := by
  unfold Machine.commitRule
  split
  · exact h
  · split
    · exact h
    · rename_i i cond _ _ r0 filled
      have given := h.setSlot (x := some { r0 with condition := cond.getD r0.condition }) i fun r hr => by
        obtain rfl := Option.some.inj hr
        exact h.slots i r0 filled
      simp only
      split
      · exact given
      · exact given.takeCommit ((Decoder.setSlot_slot _ _ _ _).trans (if_pos rfl)) (agree.2.1.1 i r0 filled).1

theorem setControlCodesRule (h : s.Contents) (p : List Byte) : (setControlCodesRule p s).1.Contents := by
  unfold Machine.setControlCodesRule
  split
  · exact h
  · simp only
    split_ifs
    · exact h
    · exact h
    · exact h.setLoad h.slots

/-! ### Sweeps (R86 to R94) -/

theorem sweepRule (h : s.Contents) (p : List Byte) : (sweepRule p s).1.Contents := by
  unfold Machine.sweepRule
  split
  · exact h
  · rename_i desc _
    split
    · exact h
    · have entry := Directory.holdMatching_entry s.dir desc
      refine setSweep (h.states (fun j => ?_) (fun j => ?_) (Directory.holdMatching_frames _ _)) _
      · rw [entry]; split <;> rfl
      · rw [entry]; split <;> exact id

theorem abortSweepRule (h : s.Contents) (p : List Byte) : (abortSweepRule p s).1.Contents := by
  unfold Machine.abortSweepRule
  split
  · exact h
  · have entry := Directory.releaseAll_entry s.dir
    refine setSweep (post (tellReleased _ (h.states (fun j => ?_) (fun j => ?_) (Directory.releaseAll_frames _))) _) _
    · rw [entry]
    · rw [entry]; exact id

theorem release (h : s.Contents) (i : Fin 48) : (s.setDir (s.dir.release i)).Contents :=
  h.entry (i := i) (e := { s.dir.entries[i] with held := false }) (h.entries i)
    (fun _ => Directory.setEntry_entry _ _ _ _) rfl

theorem visitEntry (h : s.Contents) (r : SweepRun) (i : Fin 48) : (s.visitEntry r i).1.Contents := by
  unfold State.visitEntry
  split
  · split
    · rename_i k _
      unfold State.visitHeld
      simp only
      split
      · split
        · exact (h.release i).keyReleased k
        · exact (h.free i).keyReleased k
      · split
        · exact (h.release i).keyReleased k
        · have applied : (s.setDir (s.dir.visitApply i r.descriptor k)).Contents :=
            h.entry (i := i) ((h.entries i).filter _) (fun _ => Directory.visitApply_entry _ _ _ _ _) (by simp)
          have told : ∀ lost, (if lost = [] then s.setDir (s.dir.visitApply i r.descriptor k) else
              (s.setDir (s.dir.visitApply i r.descriptor k)).tellLines i lost).Contents := fun lost => by
            split
            · exact applied
            · exact applied.tellLines _ _
          split
          · exact (told _).keyReleased _
          · exact (told _).keyMoved _ _ _
    · exact h.release i
  · exact h

theorem sweepAdvance (h : s.Contents) (r : SweepRun) : (s.sweepAdvance r).Contents := by
  unfold State.sweepAdvance
  split
  · exact h.setSweep _
  · exact (h.post _).setSweep _

/-! ### Navigation and display (R71 to R73, R105 to R108) -/

theorem showRule (h : s.Contents) (p : List Byte) : (showRule p s).1.Contents := by
  unfold Machine.showRule
  split
  · split
    · exact h
    · split
      · exact h
      · exact (h.setNav _).wantPage _ _
  · exact h

theorem declineMiss (h : s.Contents) : s.declineMiss.Contents := by
  unfold State.declineMiss
  split
  · simp only
    split
    · exact ((h.setNav _).setNav _).tellCondition _
    · exact h.setNav _
  · exact h

theorem setNavigationRule (h : s.Contents) (p : List Byte) : (setNavigationRule p s).1.Contents := by
  unfold Machine.setNavigationRule
  split
  · split
    · exact h
    · exact h.setNav _
  · exact h

theorem mayRecompose (h : s.Contents) (c : Prop) [Decidable c] (lines : List (Fin 32)) :
    (if c then s.recompose lines else s).Contents := by
  split
  · exact h.recompose lines
  · exact h

theorem setStatusRule (h : s.Contents) (p : List Byte) : (setStatusRule p s).1.Contents := by
  unfold Machine.setStatusRule
  split
  · split
    · exact h
    · split
      · refine mayRecompose ?_ _ _
        split
        · exact h.setComp _
        · exact (h.setComp _).recompose _
      · exact h
  · exact h

theorem setGlyphsRule (h : s.Contents) (p : List Byte) : (setGlyphsRule p s).1.Contents :=
  (h.setComp _).mayRecompose _ _

/-! ### The pin field, the drive, the calendar and the zones -/

theorem setDriveRule (h : s.Contents) (p : List Byte) : (setDriveRule p s).1.Contents := by
  unfold Machine.setDriveRule
  split
  · rename_i st rate cap extra
    simp only
    split
    · exact (h.setDrive { s.drive with strokeTime := st.toNat, refillRate := rate.toNat, bankCap := cap.toNat,
                                       markExtra := extra.toNat }).reform fun _ => true
    · exact h
  · exact h

theorem pauseDrive (h : s.Contents) : s.pauseDrive.Contents := by
  have stopped : ∀ c d, (((s.setCal c).setDrive d).setCal { c with sched := .paused }).Contents := fun c d =>
    ((h.setCal c).setDrive d).setCal _
  unfold State.pauseDrive
  simp only
  split
  · exact (h.setCal _).setCal _
  · split
    · exact h.setCal _
    · exact stopped _ _
  · split
    · exact h.setCal _
    · exact stopped _ _
  · exact h.setCal _
  · exact h.setCal _

theorem takeUp (h : s.Contents) {announce : State → State} (announced : ∀ u, (announce u).holders = u.holders) :
    (s.takeUp announce).Contents := h.congr (State.holders_offDrive.takeUp s announced)

theorem resumeDrive (h : s.Contents) : s.resumeDrive.Contents := by
  unfold State.resumeDrive
  simp only
  split
  · exact (h.setCal _).takeUp fun _ => rfl
  · exact (h.setCal _).wake
  · exact h.setCal _
  · exact h.setCal _
  · exact h.setCal _

theorem surveyAll (h : s.Contents) : s.surveyAll.Contents := by
  have unknown : (s.setPins s.pins.allUnknown).Contents := h.setPins h.attempts
  unfold State.surveyAll
  simp only
  split
  · split
    · exact (unknown.setCal _).reform _
    · exact ((unknown.setCal _).reform _).requestSurvey
  · exact (unknown.setCal _).requestSurvey
  · exact unknown
  · exact unknown
  · exact unknown

theorem clearFaultsRule (h : s.Contents) (p : List Byte) : (clearFaultsRule p s).1.Contents := by
  unfold Machine.clearFaultsRule
  split
  · split
    · exact h
    · rename_i sel _
      unfold State.clearFaults
      simp only
      split
      · exact h
      · exact ((h.setPins (h.attempts.clear sel)).reform _).wake
  · exact h

theorem setCalendarRule (h : s.Contents) (p : List Byte) : (setCalendarRule p s).1.Contents := by
  unfold Machine.setCalendarRule
  split
  · exact h
  · simp only
    split
    · exact h.setCal _
    · exact h

theorem setTouchRule (h : s.Contents) (p : List Byte) : (setTouchRule p s).1.Contents := by
  unfold Machine.setTouchRule
  split
  · split
    · exact h.setTouch _
    · exact h
  · exact h

theorem setNoticeMaskRule (h : s.Contents) (p : List Byte) : (setNoticeMaskRule p s).1.Contents := by
  unfold Machine.setNoticeMaskRule
  split
  · split
    · exact h.setLink _
    · exact h
  · exact h

theorem takeResult (h : s.Contents) (p : Plan) (sensed : PinRow) : (s.takeResult p sensed).Contents := by
  have judged : ∀ (moves : List Move) (x : ResultTally), x.pins.AttemptsSound →
      (moves.foldl (ResultTally.move p.row sensed) x).pins.AttemptsSound := fun moves => by
    induction moves with
    | nil => exact fun _ => id
    | cons m rest ih => exact fun x hx => ih _ (ResultTally.move_attempts p.row sensed hx m)
  have judged := judged p.moves ⟨s.pins, 0, false⟩ h.attempts
  unfold State.takeResult
  split
  · exact h.setPins h.attempts
  · simp only
    generalize p.moves.foldl (ResultTally.move p.row sensed) ⟨s.pins, 0, false⟩ = x at judged
    have confirmed : (s.setPins (x.pins.confirm p.row sensed)).Contents := h.setPins judged
    split
    · exact confirmed
    · exact confirmed.post _

theorem supplyLost (h : s.Contents) : s.supplyLost.Contents := by
  have discarded : s.discardStroke.Contents := by
    unfold State.discardStroke
    split
    · exact h.setPins h.attempts
    · exact h
  exact ((discarded.setDrive _).setCal _).postDrive

theorem supplyPin (h : s.Contents) (level : Supply) : ({ s with supplyPin := level } : State).Contents := h.congr rfl

theorem supplyBack (h : s.Contents) : s.supplyBack.Contents := by
  unfold State.supplyBack
  simp only
  split
  · exact ((h.setDrive _).setCal _).postDrive
  · exact (h.setDrive _).takeUp fun u => State.holders_offDrive.post u _

theorem zoneTakes (h : s.Contents) (z : Fin 16) (r : Zone × Bool) : (s.zoneTakes z r).Contents := by
  have changed : ∀ {u : State} (b : Bool), u.Contents → (u.zoneChanged z b).Contents := fun {u} b hu => by
    have woken := ((hu.recompose (u.zoneLines z)).reform fun r => bandOfRow r == bandOfZone z).wake
    unfold State.zoneChanged
    simp only
    split
    · exact (woken.setCal _).post _
    · exact woken.post _
  unfold State.zoneTakes
  simp only
  split
  · split
    · exact changed _ ((h.setTouch _).setTouch _)
    · exact changed _ (h.setTouch _)
  · exact h.setTouch _

/-! ### The resets (R189) -/

theorem resetBlocks (s : State) (kind : ResetKind) : (s.resetBlocks kind).Contents := by
  refine ⟨fun i => ?_, fun i r hr => ?_, .nil, .nil⟩
  · change MarksFit (Directory.afterReset.entries[i].state = .loading) Directory.afterReset.entries[i].marks
    rw [Directory.afterReset_entry]
    exact .nil
  · cases (Decoder.afterReset_slot i).symm.trans hr

/-! ### Every row -/

/-- R181 to R183: a command that is taken by a rule, or refused. -/
theorem take (h : s.Contents) {code : Byte} {b : CommandBody} {owner : List Byte → State → State × Reply}
    (rule : ∀ p, (owner p s).1.Contents) (taken : s.take code b owner = .next t) : t.Contents := by
  rcases State.take_cases owner taken with ⟨-, -, rfl⟩ | ⟨-, -, rfl⟩ | ⟨-, rfl⟩
  · exact (rule b.payload).setLink _
  · exact h.setLink _
  · exact h

end State.Contents

end Sys2Proof.Machine
end

section
/-! SUPPORT. Every row keeps the contents of entries, slots and stores sound. -/

namespace Sys2Proof.Machine

variable {s t : State}

theorem execStrokeCompletion_contents (h : s.Contents) {sensed : PinRow} (e : execStrokeCompletion sensed s = .next t) :
    t.Contents := by
  unfold execStrokeCompletion at e
  split at e
  · cases e; exact h
  · split at e <;> cases e
    · exact ((h.takeResult _ sensed).setDrive _).strokeDone
    · exact h

theorem execSweepVisit_contents (h : s.Contents) (e : execSweepVisit s = .next t) : t.Contents := by
  unfold execSweepVisit at e
  split at e
  · cases e; exact h
  · split at e <;> cases e
    · exact h
    · exact (h.visitEntry _ _).sweepAdvance _

theorem execTimeout_contents (h : s.Contents) {slot : Fin 2} (e : execTimeout slot s = .next t) : t.Contents := by
  unfold execTimeout at e
  split at e
  · cases e; exact h
  · split at e <;> cases e
    · exact h
    · exact h.fatalStream _ _ _ _

theorem execWriteCommand_contents (h : s.Contents) {shown : Byte} {bytes : List Byte}
    (e : execWriteCommand shown bytes s = .next t) : t.Contents := by
  unfold execWriteCommand at e
  simp only at e
  split_ifs at e
  · cases e; exact h.setLink _
  · cases e; exact h
  · cases e; exact h.setLink _
  · split at e <;> cases e
    · exact (h.setLink _).setLink _
    · exact h.setLink _

theorem execReadResponse_contents (h : s.Contents) {n : Nat} (e : execReadResponse n s = .next t) : t.Contents := by
  unfold execReadResponse at e
  split_ifs at e <;> cases e <;> exact h.setLink _

theorem execReadNotice_contents (h : s.Contents) {n : Nat} (e : execReadNotice n s = .next t) : t.Contents := by
  unfold execReadNotice at e
  split_ifs at e <;> cases e <;> exact h.setLink _

/-- What both of a row's answers have. -/
theorem outcome_of_ite {σ φ ρ : Type} {P : σ → Prop} {c : Prop} [Decidable c] {x y t : σ} (hx : P x) (hy : P y)
    (e : (if c then Host.Outcome.next x else .next y : Host.Outcome σ φ ρ) = .next t) : P t := by
  split at e <;> cases e
  · exact hx
  · exact hy

/-- R189 aside, every row is taken by one rule or makes one event's changes. -/
theorem exec_contents (h : s.Contents) (agree : s.PagesAgree) {c : Instr} (e : exec c s = .next t) : t.Contents := by
  cases c with
  | openLoad b => exact h.take h.openLoadRule e
  | data b => exact h.take h.dataRule e
  | commit b => exact h.take (h.commitRule agree) e
  | cancelLoad b => exact h.take h.cancelLoadRule e
  | setControlCodes b => exact h.take h.setControlCodesRule e
  | queryEntry b => exact h.take (fun p => by rw [queryEntryRule_state]; exact h) e
  | listEntries b => exact h.take (fun p => by rw [listEntriesRule_state]; exact h) e
  | readRow b => exact h.take (fun p => by rw [readRowRule_state]; exact h) e
  | readFaults b => exact h.take (fun _ => h) e
  | readStatus b => exact h.take (fun _ => h) e
  | patchCells b => exact h.take h.patchCellsRule e
  | retire b => exact h.take h.retireRule e
  | setEntry b => exact h.take h.setEntryRule e
  | addMark b => exact h.take h.addMarkRule e
  | dropMarks b => exact h.take h.dropMarksRule e
  | sweep b => exact h.take h.sweepRule e
  | abortSweep b => exact h.take h.abortSweepRule e
  | showKey b => exact h.take h.showRule e
  | declineMiss b => exact h.take (fun _ => h.declineMiss) e
  | setNavigation b => exact h.take h.setNavigationRule e
  | setStatus b => exact h.take h.setStatusRule e
  | setGlyphs b => exact h.take h.setGlyphsRule e
  | setCalendar b => exact h.take h.setCalendarRule e
  | setDrive b => exact h.take h.setDriveRule e
  | pauseDrive b => exact h.take (fun _ => h.pauseDrive) e
  | resumeDrive b => exact h.take (fun _ => h.resumeDrive) e
  | survey b => exact h.take (fun _ => h.surveyAll) e
  | clearFaults b => exact h.take h.clearFaultsRule e
  | setTouch b => exact h.take h.setTouchRule e
  | setNoticeMask b => exact h.take h.setNoticeMaskRule e
  | resetCommand b => exact h.take (fun _ => .resetBlocks s .command) e
  | powerOnReset => cases e; exact .resetBlocks s .powerOn
  | pinReset => cases e; exact .resetBlocks { s with resetPin := false } .pin
  | resetPinAsserted => cases e; exact h.congr rfl
  | writeCommand shown bytes => exact execWriteCommand_contents h e
  | readResponse clocked => exact execReadResponse_contents h e
  | readNotice clocked => exact execReadNotice_contents h e
  | statusOnlyTransaction code clocked => exact outcome_of_ite (h.setLink _) (h.setLink _) e
  | unknownCommand code b => exact outcome_of_ite (h.setLink _) h e
  | keySample prev next mark seek call => exact outcome_of_ite h (h.sample _) e
  | timeout slot => exact execTimeout_contents h e
  | blinkTimerExpiry => exact outcome_of_ite h ((h.setComp _).recompose _) e
  | zoneReading zone count => exact outcome_of_ite h (h.zoneTakes _ _) e
  | holdTimerExpiry zone => exact outcome_of_ite h (h.zoneTakes _ _) e
  | refillUnitArrival => exact outcome_of_ite h (h.setDrive _).startIfCharged e
  | strokeStart => exact outcome_of_ite h h.startIfCharged e
  | strokeCompletion sensed => exact execStrokeCompletion_contents h e
  | supplyFall => exact outcome_of_ite (h.supplyPin .low) (h.supplyPin .low).supplyLost e
  | supplyRise => exact outcome_of_ite (h.supplyPin .ok) (h.supplyPin .ok).supplyBack e
  | sweepVisit => exact execSweepVisit_contents h e

end Sys2Proof.Machine

section
open Sys2Proof Sys2Proof.Machine

/-- Settles O54: by the row taken, each change of a mark list, a load record or a store being one that keeps it sound. -/
theorem stepKeepsMarksAndStores : Obligations.StepKeepsMarksAndStores := by
  intro s t agree marks stores h
  have sound := s.contents_iff.mpr ⟨marks, stores⟩
  unfold step at h
  split at h
  · cases h
    exact ⟨marks, stores⟩
  · rename_i c rest _
    exact t.contents_iff.mp (exec_contents (s := { s with pending := rest }) (sound.congr rfl) agree h)

end
end

section
/-! SUPPORT. OPEN LOAD: the slot and the entry that are chosen, and what it refuses (R12, R24, R25). -/

namespace Sys2Proof.Machine

theorem Decoder.lowestIdle_eq_some {d : Decoder} {i : Fin 2} :
    d.lowestIdle = some i ↔ LeastIndex (fun j : Fin 2 => d.slots[j] = none) i := by
  simp only [Decoder.lowestIdle, find_finRange_eq_some, beq_iff_eq]

theorem Decoder.lowestIdle_none {d : Decoder} : d.lowestIdle = none ↔ ∀ j : Fin 2, d.slots[j] ≠ none := by
  simp [Decoder.lowestIdle]

theorem Directory.lowestFree_some {d : Directory} {i : Fin 48} :
    d.lowestFree = some i ↔ LeastIndex (fun j : Fin 48 => d.entries[j].state = .free) i := by
  simp only [Directory.lowestFree, find_finRange_eq_some, beq_iff_eq]

theorem Directory.lowestFree_none {d : Directory} :
    d.lowestFree = none ↔ ∀ j : Fin 48, d.entries[j].state ≠ .free := by
  simp [Directory.lowestFree]

/-- R12: what is reclaimed is the first entry of the queue that is not HELD. -/
theorem Directory.reclaimable_first {d : Directory} {i : Fin 48} {before after : List (Fin 48)}
    (queue : d.queue = before ++ i :: after) (held : ∀ j ∈ before, d.entries[j].held = true)
    (free : d.entries[i].held = false) : d.reclaimable = some i := by
  have none : before.find? (fun j => !d.entries[j].held) = none := by
    simpa using held
  rw [Directory.reclaimable, queue, List.find?_append, none, Option.none_or, List.find?_cons_of_pos (by rw [free]; rfl)]

theorem Directory.chooseEntry_free {d : Directory} {i : Fin 48}
    (h : LeastIndex (fun j : Fin 48 => d.entries[j].state = .free) i) : d.chooseEntry = some (i, false) := by
  rw [Directory.chooseEntry, Directory.lowestFree_some.mpr h]

theorem Directory.chooseEntry_reclaimed {d : Directory} (h : ∀ j : Fin 48, d.entries[j].state ≠ .free) :
    d.chooseEntry = d.reclaimable.map fun i => (i, true) := by
  rw [Directory.chooseEntry, Directory.lowestFree_none.mpr h]

/-- R12, R25: the frame of the entry that becomes LOADING is cleared, and no other changes. -/
theorem Directory.openEntry_frameByte {d : Directory} (wf : Memory.wf d.frames = true) (i j : Fin 48) (slot : Fin 2)
    (a : OpenArgs) {o : Nat} (ho : o < 1280) :
    (d.openEntry i slot a).frameByte j o = if j = i then 0 else d.frameByte j o :=
  read_clearFrame d.frames i j o ho wf

/-- R1, R22, R25: the state that an OPEN LOAD leaves. -/
theorem State.opened (s : State) (a : OpenArgs) (slot : Fin 2) (i : Fin 48) (tag : Byte) (payload : List Byte)
    (wf : Memory.wf s.dir.frames = true) :
    s.Opened (((s.setDir (s.dir.openEntry i slot a)).setLoad
      (s.load.setSlot slot (some (openRecord a i)))).answer 0x10 tag .ok payload) a slot i where
  others := rfl
  entries := by
    change (s.dir.entries.set i Entry.free).set i (loadingEntryOf a slot) = _
    rw [Vector.set_set]; rfl
  queue := rfl
  frames j o ho := Directory.openEntry_frameByte wf i j slot a ho

section
variable {s : State} {p : List Byte} {a : OpenArgs} (read : readOpenArgs p = some a)
include read

/-- R24, R25: OPEN LOAD is taken. -/
theorem openLoadRule_opens {slot : Fin 2} {i : Fin 48} {reclaimed : Bool} (key : s.load.slotOfKey a.key = none)
    (idle : s.load.lowestIdle = some slot) (chosen : s.dir.chooseEntry = some (i, reclaimed)) :
    openLoadRule p s =
      ((s.setDir (s.dir.openEntry i slot a)).setLoad (s.load.setSlot slot (some (openRecord a i))),
        ⟨.ok, [put8 slot.val, put8 i.val] ++
          putKeyOr s.link.served placeReclaimedKey (if reclaimed then s.dir.entries[i].key else none)⟩) := by
  simp only [openLoadRule, read, key, idle, chosen, Option.isSome_none, Bool.false_eq_true, if_false]

theorem openLoadRule_keyBusy (key : (s.load.slotOfKey a.key).isSome) : openLoadRule p s = (s, .bare .keyBusy) := by
  simp only [openLoadRule, read, key, if_true]

theorem openLoadRule_noSlot (key : s.load.slotOfKey a.key = none) (idle : s.load.lowestIdle = none) :
    openLoadRule p s = (s, .bare .noSlot) := by
  simp only [openLoadRule, read, key, idle, Option.isSome_none, Bool.false_eq_true, if_false]

theorem openLoadRule_storeFull {slot : Fin 2} (key : s.load.slotOfKey a.key = none)
    (idle : s.load.lowestIdle = some slot) (full : s.dir.chooseEntry = none) :
    openLoadRule p s = (s, .bare .storeFull) := by
  simp only [openLoadRule, read, key, idle, full, Option.isSome_none, Bool.false_eq_true, if_false]

end

theorem readKind_none {v : Byte} (h : 2 ≤ v.toNat) : readKind v = none := by
  unfold readKind
  rw [if_neg (by rintro rfl; simp at h), if_neg (by rintro rfl; simp at h)]

theorem readCommitCondition_none {c : Byte} (r0 r1 : Byte) (h : c ≠ 1 ∧ c ≠ 2 ∧ c ≠ 3) :
    readCommitCondition c r0 r1 = none := by
  unfold readCommitCondition
  rw [if_neg h.1, if_neg h.2.1, if_neg h.2.2]

/-- R24, step 1: an argument out of range spoils the whole of them. -/
theorem readOpenArgs_none {d p0 p1 kind group pinned c r0 r1 : Byte}
    (h : 16 ≤ d.toNat ∨ 2 ≤ kind.toNat ∨ 16 ≤ group.toNat ∨ 2 ≤ pinned.toNat ∨ (c ≠ 1 ∧ c ≠ 2 ∧ c ≠ 3)) :
    readOpenArgs [d, p0, p1, kind, group, pinned, c, r0, r1] = none := by
  rcases h with h | h | h | h | h
  · simp [readOpenArgs, readKey_none _ _ _ h]
  · simp [readOpenArgs, readKind_none h]
  · simp [readOpenArgs, readNibble_none _ h]
  · simp [readOpenArgs, readBool_none _ h]
  · simp [readOpenArgs, readCommitCondition_none _ _ h]

end Sys2Proof.Machine

section
open Sys2Proof Sys2Proof.Machine

/-- Settles O10, by the searches for the slot and the entry. -/
theorem openLoadTakesAnEntry : Obligations.OpenLoadTakesAnEntry := by
  rintro s b tag x y a slot i rfl accepts wf noLoad idle
  have allowed : lengthAllowed 0x10 (a.bytes x y).length = true := by rw [OpenArgs.bytes_length]; rfl
  have opens := fun {reclaimed} => openLoadRule_opens (i := i) (reclaimed := reclaimed) (readOpenArgs_bytes a x y)
    (Decoder.slotOfKey_none.mpr noLoad) (Decoder.lowestIdle_eq_some.mpr idle)
  refine ⟨fun free => ?_, fun k before after noFree queue held notHeld key => ?_⟩
  · exact ⟨_, _, _, State.take_frameOf accepts allowed (opens (Directory.chooseEntry_free free)),
      s.opened a slot i tag _ wf, rfl⟩
  · have chosen : s.dir.chooseEntry = some (i, true) := by
      rw [Directory.chooseEntry_reclaimed noFree, Directory.reclaimable_first queue held notHeld]; rfl
    have rule := opens chosen
    rw [if_pos rfl, key] at rule
    exact ⟨_, State.take_frameOf accepts allowed rule, s.opened a slot i tag _ wf, rfl⟩

/-- Settles O11, by the order in which OPEN LOAD looks. -/
theorem openLoadRefusals : Obligations.OpenLoadRefusals := by
  intro s b tag accepts
  refine ⟨?_, ?_⟩
  · rintro d p0 p1 kind group pinned c r0 r1 rfl bad
    exact State.take_frameOf accepts rfl (show openLoadRule _ s = (s, .bare .badArgument) by
      rw [openLoadRule, readOpenArgs_none bad])
  · rintro x y a rfl
    have allowed : lengthAllowed 0x10 (a.bytes x y).length = true := by rw [OpenArgs.bytes_length]; rfl
    have read := readOpenArgs_bytes a x y
    refine ⟨fun ⟨j, r, hr, hk⟩ => ?_, fun full => ?_, fun noLoad ⟨j, hj⟩ noFree held => ?_⟩
    · have busy : (s.load.slotOfKey a.key).isSome := by
        rw [Option.isSome_iff_ne_none]
        exact fun none => Decoder.slotOfKey_none.mp none j r hr hk
      exact State.take_frameOf accepts allowed (openLoadRule_keyBusy read busy)
    · have noLoad : s.load.slotOfKey a.key = none := Decoder.slotOfKey_none.mpr fun j r hr => by
        obtain ⟨q, hq, hk⟩ := full j
        exact Option.some.inj (hq.symm.trans hr) ▸ hk
      have used : s.load.lowestIdle = none := Decoder.lowestIdle_none.mpr fun j none => by
        obtain ⟨q, hq, -⟩ := full j
        cases none.symm.trans hq
      exact State.take_frameOf accepts allowed (openLoadRule_noSlot read noLoad used)
    · obtain ⟨slot, idle⟩ : ∃ slot, s.load.lowestIdle = some slot :=
        Option.ne_none_iff_exists'.mp fun none => Decoder.lowestIdle_none.mp none j hj
      have chosen : s.dir.chooseEntry = none := by
        rw [Directory.chooseEntry_reclaimed noFree, Directory.reclaimable, Option.map_eq_none_iff, List.find?_eq_none]
        simpa using held
      exact State.take_frameOf accepts allowed
        (openLoadRule_storeFull read (Decoder.slotOfKey_none.mpr noLoad) idle chosen)

end
end

section
/-! SUPPORT. COMMIT: its arguments, its refusals, and the two ways in which it is taken (R41 to R45). -/

namespace Sys2Proof.Machine

/-! ### The arguments -/

/-- COMMIT's arguments read back. -/
theorem readCommitArgs_bytes (i : Fin 2) (given : Option CommitCondition) (x y : Byte) :
    readCommitArgs (put8 i.val :: ((given.map fun c => c.bytes x y).getD [])) = some (i, given) := by
  cases given with
  | none => simp [readCommitArgs]
  | some c =>
    obtain ⟨code, lo, hi, bytes, read⟩ := c.read_bytes x y
    simp [readCommitArgs, bytes, read]

theorem lengthAllowed_commitBytes (i : Fin 2) (given : Option CommitCondition) (x y : Byte) :
    lengthAllowed 0x12 (put8 i.val :: ((given.map fun c => c.bytes x y).getD [])).length = true := by
  cases given with
  | none => rfl
  | some c =>
    obtain ⟨code, lo, hi, bytes, -⟩ := c.read_bytes x y
    simp only [Option.map_some, Option.getD_some, bytes]
    rfl

/-! ### Taken or refused -/

/-- R41: the state with the condition of slot `i` replaced. -/
def State.recondition (s : State) (i : Fin 2) (r : LoadSlot) (c : CommitCondition) : State :=
  { s with load := { s.load with slots := s.load.slots.set i (some { r with condition := c }) } }

section
variable {s : State} {p : List Byte} {i : Fin 2} {r : LoadSlot} {given : Option CommitCondition}
  (read : readCommitArgs p = some (i, given)) (slot : s.load.slots[i] = some r)
include read slot

theorem commitRule_refuses {reply : Reply}
    (refusal : commitRefusal (given.getD r.condition)
      ((s.dir.visibleEntry r.key).map fun v => s.dir.entries[v]) = some reply) :
    commitRule p s = (s.recondition i r (given.getD r.condition), reply) := by
  simp only [commitRule, read, slot, refusal]
  rfl

theorem commitRule_takes
    (taken : commitRefusal (given.getD r.condition)
      ((s.dir.visibleEntry r.key).map fun v => s.dir.entries[v]) = none) :
    commitRule p s = (s.recondition i r (given.getD r.condition)).takeCommit i
      { r with condition := given.getD r.condition } := by
  simp only [commitRule, read, slot, taken]
  rfl

end

theorem commitRule_slotState {s : State} {p : List Byte} {i : Fin 2} {given : Option CommitCondition}
    (read : readCommitArgs p = some (i, given)) (idle : s.load.slots[i] = none) :
    commitRule p s = (s, .bare .slotState) := by
  simp only [commitRule, read, idle]

/-! ### The end of the stream -/

/-- R42: the mark list and the dropped count of a load at its COMMIT. -/
def LoadSlot.ended (r : LoadSlot) (marks : List Mark) : List Mark × Nat :=
  if r.complete = true ∨ r.kind = Kind.raw then (marks, r.dropped) else r.closing marks (r.position % 40)

/-- R42: the implicit end of a stream, by its mark list and dropped count and whether an element was discarded. -/
theorem State.streamWork_implicitEnd (s : State) (r : LoadSlot) :
    let ended := r.ended s.dir.entries[r.entry].marks
    (s.streamWork r).implicitEnd.1.marks = ended.1 ∧ (s.streamWork r).implicitEnd.1.slot.dropped = ended.2 ∧
      (s.streamWork r).implicitEnd.2 = decide (r.complete = false ∧ r.kind = Kind.text ∧ r.text ≠ TextState.plain) := by
  simp only
  unfold StreamWork.implicitEnd LoadSlot.ended
  by_cases hover : r.complete = true ∨ r.kind = Kind.raw
  · rw [if_pos hover, if_pos (show ((s.streamWork r).slot.complete || (s.streamWork r).slot.kind == Kind.raw) = true by
      simpa [State.streamWork] using hover)]
    exact ⟨rfl, rfl, (decide_eq_false (by rintro ⟨h, k, -⟩; simp [h, k] at hover)).symm⟩
  · have running : r.complete = false ∧ r.kind = Kind.text := by
      refine ⟨by simpa using fun h => hover (.inl h), ?_⟩
      cases kind : r.kind with
      | text => rfl
      | raw => exact absurd (.inr kind) hover
    rw [if_neg hover, if_neg (show ¬ ((s.streamWork r).slot.complete || (s.streamWork r).slot.kind == Kind.raw) = true by
      simpa [State.streamWork] using hover), StreamWork.markClose, StreamWork.closeMark_eq]
    refine ⟨rfl, rfl, ?_⟩
    simp [State.streamWork, running, bne, beq_eq_decide]

/-! ### A new page and a replacement -/

/-- R43: the directory of a page that was placed as a new key. -/
theorem Directory.placeNew_eq {d : Directory} {i : Fin 48} (out : i ∉ d.queue) (marks : List Mark) :
    d.placeNew i marks = { d with
      entries := d.entries.set i { d.entries[i] with state := .ready, revision := 1, slot := none, marks := marks }
      queue := if d.entries[i].pinned then d.queue else d.queue ++ [i] } := by
  refine Directory.eq_of ?_ (Directory.placeNew_frames _ _ _) ?_
  · exact Directory.joinQueue_entries _ _
  · have same := Directory.setEntry_entry d i i { d.entries[i] with
      state := .ready, revision := 1, slot := none, marks := marks }
    rw [if_pos rfl] at same
    rw [Directory.placeNew, Directory.joinQueue_queue, same]
    cases d.entries[i].pinned <;> simp [Directory.setEntry, out]

/-- R44: the directory of a page that has replaced the visible entry `v`. -/
theorem Directory.replaceEntry_eq {d : Directory} {i v : Fin 48} (out : i ∉ d.queue) (visible : d.entries[v].visible = true)
    (marks : List Mark) :
    d.replaceEntry i v marks = { d with
      entries := (d.entries.set i { d.entries[i] with
        state := d.entries[v].state
        revision := d.entries[v].revision + 1
        slot := none
        marks := marks }).set v Entry.free
      queue := (if d.entries[v].state = EntryState.ready ∧ d.entries[i].pinned = false then
        d.queue ++ [i] else d.queue).filter (· ≠ v) } := by
  have kept : (if d.entries[v].state = .shown then EntryState.shown else .ready) = d.entries[v].state := by
    rcases d.entries[v].visible_iff.mp visible with h | h <;> simp only [h] <;> rfl
  have same := Directory.setEntry_entry d i i { d.entries[i] with
    state := d.entries[v].state, revision := d.entries[v].revision + 1, slot := none, marks := marks }
  rw [if_pos rfl] at same
  simp only [Directory.replaceEntry, kept]
  refine Directory.eq_of ?_ (Directory.joinQueue_frames _ _) ?_
  · exact congrArg (·.set v Entry.free) (Directory.joinQueue_entries _ _)
  · change (Directory.joinQueue _ i).queue.filter _ = _
    rw [Directory.joinQueue_queue, same]
    simp only [Directory.setEntry, out, not_false_iff, and_true]

/-- R74: telling navigation of a commit does what R74 says, whatever it has to evaluate. -/
theorem State.keyCommitted_tellsCommitted (s : State) (k : Key) : s.TellsCommitted k (s.keyCommitted k) :=
  s.keyCommitted_tells k fun _ _ => State.evaluate_evaluates _ _

/-- R43: the state with a load's slot IDLE and its entry READY with revision 1. -/
def State.placed (s : State) (i : Fin 2) (r : LoadSlot) (marks : List Mark) : State :=
  { s with
    load := { s.load with slots := s.load.slots.set i none }
    dir := { s.dir with
      entries := s.dir.entries.set r.entry
        { s.dir.entries[r.entry] with state := .ready, revision := 1, slot := none, marks := marks }
      queue := if s.dir.entries[r.entry].pinned then s.dir.queue else s.dir.queue ++ [r.entry] } }

/-- R44: the state with a load's slot IDLE, its entry in place of the visible entry `v`, and `v` FREE. -/
def State.replaced (s : State) (i : Fin 2) (r : LoadSlot) (v : Fin 48) (marks : List Mark) : State :=
  { s with
    load := { s.load with slots := s.load.slots.set i none }
    dir := { s.dir with
      entries := (s.dir.entries.set r.entry { s.dir.entries[r.entry] with
        state := s.dir.entries[v].state
        revision := s.dir.entries[v].revision + 1
        slot := none
        marks := marks }).set v Entry.free
      queue := (if s.dir.entries[v].state = EntryState.ready ∧ s.dir.entries[r.entry].pinned = false then
          s.dir.queue ++ [r.entry] else s.dir.queue).filter (· ≠ v) } }

/-- R42, R43, R45: a commit of a key with no visible entry. -/
theorem State.takeCommit_new {s : State} {r : LoadSlot} (none : s.dir.visibleEntry r.key = none)
    (out : r.entry ∉ s.dir.queue) (i : Fin 2) (c : CommitCondition) :
    let ended := r.ended s.dir.entries[r.entry].marks
    ((s.recondition i r c).takeCommit i { r with condition := c }) =
      ((s.placed i r ended.1).keyCommitted r.key,
      commitReply r.entry 1 Option.none 0 ended.2
        (decide (r.complete = false ∧ r.kind = Kind.text ∧ r.text ≠ TextState.plain))) := by
  obtain ⟨marks, dropped, cut⟩ := (s.recondition i r c).streamWork_implicitEnd { r with condition := c }
  simp only [State.takeCommit, marks, dropped, cut]
  simp only [State.recondition, none, Directory.placeNew_eq out, State.setLoad, State.setDir, Decoder.setSlot,
    Vector.set_set]
  rfl

/-- R42, R44, R45: a commit that replaces the visible entry `v`. -/
theorem State.takeCommit_replaces {s : State} {r : LoadSlot} {v : Fin 48} (found : s.dir.visibleEntry r.key = some v)
    (out : r.entry ∉ s.dir.queue) (i : Fin 2) (c : CommitCondition) :
    let ended := r.ended s.dir.entries[r.entry].marks
    let carried := carriedMarks ended.1 s.dir.entries[v].marks
    let t := s.replaced i r v (ended.1 ++ carried.1)
    ((s.recondition i r c).takeCommit i { r with condition := c }) =
      ((if s.dir.entries[v].state = .shown then t.recompose allLines else t).keyCommitted r.key,
      commitReply r.entry (s.dir.entries[v].revision + 1) (some v) carried.1.length (ended.2 + carried.2)
        (decide (r.complete = false ∧ r.kind = Kind.text ∧ r.text ≠ TextState.plain))) := by
  obtain ⟨marks, dropped, cut⟩ := (s.recondition i r c).streamWork_implicitEnd { r with condition := c }
  simp only [State.takeCommit, marks, dropped, cut]
  simp only [State.recondition, found, Directory.replaceEntry_eq out (Directory.visibleEntry_some found).1,
    State.setLoad, State.setDir, Decoder.setSlot, Vector.set_set]
  rfl

end Sys2Proof.Machine

section
open Sys2Proof Sys2Proof.Machine

/-- Settles O20, by the order in which COMMIT looks. -/
theorem commitRefusals : Obligations.CommitRefusals := by
  rintro s b tag x y i given rfl accepts
  have read := readCommitArgs_bytes i given x y
  have allowed := lengthAllowed_commitBytes i given x y
  refine ⟨fun idle => State.take_frameOf accepts allowed (commitRule_slotState read idle), ?_⟩
  rintro r slot c t rfl rfl
  have refused := fun reply refusal =>
    State.take_frameOf accepts allowed (commitRule_refuses (reply := reply) read slot refusal)
  refine ⟨fun w absent hc => refused (.bare .notFound) ?_, fun v found =>
    ⟨fun hc => ?_, fun hc held => ?_, fun w hc held other => ?_⟩⟩
  · rw [absent, hc]; rfl
  · exact refused (.withRevision .exists_ s.dir.entries[v].revision) (by rw [found, hc]; rfl)
  · refine refused (.withRevision .held s.dir.entries[v].revision) ?_
    rw [found]
    cases h : given.getD r.condition with
    | newOnly => exact absurd h hc
    | any => exact if_pos held
    | ifRevision w => exact if_pos held
  · refine refused (.withRevision .stale s.dir.entries[v].revision) ?_
    rw [found, hc]
    exact (if_neg (by rw [held]; decide)).trans (if_neg other)

/-- Settles O17, by the closed form of the commit of a new key. -/
theorem commitPlacesANewPage : Obligations.CommitPlacesANewPage := by
  rintro s b tag x y i r given ended rfl accepts slot absent cond - out rfl
  have taken : commitRefusal (given.getD r.condition)
      ((s.dir.visibleEntry r.key).map fun v => s.dir.entries[v]) = none := by
    rw [absent]
    cases h : given.getD r.condition with
    | newOnly => rfl
    | any => rfl
    | ifRevision w => exact absurd h (cond w)
  refine ⟨_, State.keyCommitted_tellsCommitted _ _, ?_⟩
  exact State.take_frameOf accepts (lengthAllowed_commitBytes i given x y)
    ((commitRule_takes (readCommitArgs_bytes i given x y) slot taken).trans (State.takeCommit_new absent out i _))

/-- Settles O18, by the closed form of the commit that replaces. -/
theorem commitReplacesThePage : Obligations.CommitReplacesThePage := by
  rintro s b tag x y i r given v ended patron carried rfl accepts slot found held cond - out hEnded rfl rfl
  obtain rfl : ended = r.ended s.dir.entries[r.entry].marks := hEnded
  have taken : commitRefusal (given.getD r.condition)
      ((s.dir.visibleEntry r.key).map fun v => s.dir.entries[v]) = none := by
    rw [found]
    rcases cond with h | h <;> rw [h]
    · exact if_neg (by rw [held]; decide)
    · exact (if_neg (by rw [held]; decide)).trans (if_pos rfl)
  have rule := (commitRule_takes (readCommitArgs_bytes i given x y) slot taken).trans
    (State.takeCommit_replaces found out i (given.getD r.condition))
  have exec := State.take_frameOf (owner := commitRule) accepts (lengthAllowed_commitBytes i given x y) rule
  generalize hc : carriedMarks _ _ = carried at exec
  generalize ht : s.replaced i r v _ = t at exec
  generalize hu : (if s.dir.entries[v].state = .shown then t.recompose allLines else t) = u at exec
  refine ⟨t, u, _, ?_, ?_, fun ready => ?_, fun shown => ?_, u.keyCommitted_tellsCommitted r.key, ?_⟩
  · subst ht hc; rfl
  · subst hu
    split
    · exact PinPath.recompose _ _
    · exact PinPath.refl _
  · exact hu.symm.trans (if_neg (by rw [ready]; decide))
  · obtain rfl : t.recompose allLines = u := (if_pos shown).symm.trans hu
    exact ⟨rfl, fun row => State.recompose_composed _ _ _ (mem_allLines _)⟩
  · subst hc; exact exec

end
end

section
/-! SUPPORT. A load that ends without a commit: by a broken stream, by CANCEL LOAD and by its idle timer (R29, R34, R39,
R40, R46, R75). -/

namespace Sys2Proof.Machine

/-- R75: telling navigation that a load has ended does what R75 says, whatever it has to evaluate. -/
theorem State.loadEnded_tellsKey (s : State) (k : Key) : s.TellsKey k (s.loadEnded k) :=
  s.loadEnded_tells k (State.evaluate_evaluates _ _)

/-- R39: dropping a load forgets what its stream had stored: the slot and the entry are set anew. -/
theorem State.storeWork_dropLoad (s : State) (i : Fin 2) (r : LoadSlot) :
    (s.storeWork i (s.streamWork r)).dropLoad i r = s.unloaded i r := by
  simp only [State.storeWork, State.dropLoad, State.streamWork, State.unloaded, State.setLoad, State.setDir,
    Decoder.setSlot, Directory.setEntry, Directory.freeEntry, Vector.set_set]

/-! ### The byte that breaks a stream -/

theorem actionOf_none {codes : List ControlEntry} {b : Byte} (h : ∀ c ∈ consulted codes, c.code ≠ some b) :
    actionOf codes b = none := by
  rw [actionOf, List.find?_eq_none.mpr (by simpa using h)]
  rfl

theorem readClass_none {b : Byte} (h : 4 ≤ b.toNat) : readClass b = none := by
  unfold readClass
  iterate 4 rw [if_neg (by rintro rfl; simp at h)]

/-- R29, R34: the bytes that break a TEXT stream, and the errors. -/
abbrev LoadSlot.Breaks (r : LoadSlot) (load : Decoder) (byte : Byte) (e : StreamError) : Prop :=
  (r.text = .escape ∧ byte ≠ load.escape ∧ (∀ c ∈ consulted load.codes.toList, c.code ≠ some byte) ∧ e = .badEscape) ∨
    (r.text = .markClass ∧ 4 ≤ byte.toNat ∧ e = .badOperand)

theorem StreamWork.byte_error {w : StreamWork} {load : Decoder} {b : Byte} {e : StreamError} (kind : w.slot.kind = .text)
    (breaks : w.slot.Breaks load b e) : w.byte load.escape load.codes.toList b = .error e := by
  simp only [StreamWork.byte, kind, StreamWork.textByte]
  rcases breaks with ⟨text, ne, unknown, rfl⟩ | ⟨text, bad, rfl⟩
  · simp only [text, if_neg ne, actionOf_none unknown]
  · simp only [text, readClass_none bad]

theorem lengthAllowed_dataBytes {i : Fin 2} {bytes : List Byte} (one : 1 ≤ bytes.length) (most : bytes.length ≤ 256) :
    lengthAllowed 0x11 (put8 i.val :: bytes).length = true := by
  have in_range : (2 ≤ (put8 i.val :: bytes).length ∧ (put8 i.val :: bytes).length ≤ 257) := by
    simp only [List.length_cons]; omega
  exact (Bool.and_eq_true _ _).mpr ⟨decide_eq_true in_range.1, decide_eq_true in_range.2⟩

/-- R27, R39: a DATA the bytes of which end in a fatal error. -/
theorem dataRule_broken {s : State} {i : Fin 2} {r : LoadSlot} {bytes : List Byte} (one : 1 ≤ bytes.length)
    (most : bytes.length ≤ 256) (slot : s.load.slots[i] = some r) (running : r.complete = false) {w : StreamWork}
    {e : StreamError} {offset : Nat}
    (h : decodeBytes s.load.escape s.load.codes.toList (s.streamWork r) 0 bytes = .fatal w e offset) :
    dataRule (put8 i.val :: bytes) s =
      ((s.storeWork i w).fatalStream i w.slot e offset, ⟨.streamFault, e.code :: putNat32 offset⟩) := by
  have fits : ¬ (bytes.length = 0 ∨ 256 < bytes.length) := by omega
  simp only [dataRule, readBelow_slot, if_neg fits, slot, running, Bool.false_eq_true, if_false, h]

theorem dataRule_fatal {s : State} {i : Fin 2} {r : LoadSlot} {byte : Byte} {rest : List Byte} {e : StreamError}
    (short : rest.length ≤ 255) (slot : s.load.slots[i] = some r) (running : r.complete = false) (kind : r.kind = .text)
    (breaks : r.Breaks s.load byte e) :
    dataRule (put8 i.val :: byte :: rest) s =
      (((s.unloaded i r).post (.streamFault i e r.offset)).loadEnded r.key,
        ⟨.streamFault, e.code :: putNat32 r.offset⟩) := by
  have ends : decodeBytes s.load.escape s.load.codes.toList (s.streamWork r) 0 (byte :: rest) =
      .fatal (s.streamWork r) e r.offset := by
    rw [decodeBytes, if_neg (show ¬ (s.streamWork r).slot.complete = true by simp [State.streamWork, running]),
      StreamWork.byte_error kind breaks]
    rfl
  rw [dataRule_broken (bytes := byte :: rest) (by simp) (Nat.succ_le_succ short) slot running ends, ← State.storeWork_dropLoad]
  rfl

/-! ### CANCEL LOAD and the idle timer -/

theorem cancelLoadRule_cancels {s : State} {i : Fin 2} {r : LoadSlot} (slot : s.load.slots[i] = some r) :
    cancelLoadRule [put8 i.val] s =
      ((s.unloaded i r).loadEnded r.key, ⟨.ok, put8 r.entry.val :: putNat32 r.offset⟩) := by
  simp only [cancelLoadRule, readBelow_slot, slot]
  rfl

theorem execTimeout_ends {s : State} {i : Fin 2} {r : LoadSlot} (slot : s.load.slots[i] = some r)
    (running : s.resetPin = false) :
    execTimeout i s = .next (((s.unloaded i r).post (.streamFault i .timeout r.offset)).loadEnded r.key) := by
  simp only [execTimeout, running, Bool.false_eq_true, if_false, slot]
  rfl

/-- R2, R22: once a load has ended, no other entry that is not FREE holds its key, if none is visible. -/
theorem State.unloaded_absent {s : State} (agree : s.PagesAgree) {i : Fin 2} {r : LoadSlot}
    (slot : s.load.slots[i] = some r) (hidden : s.dir.visibleEntry r.key = none) :
    (s.unloaded i r).dir.lookup r.key = .absent := by
  rw [Directory.lookup_absent]
  intro j
  rw [show (s.unloaded i r).dir.entries[j] = if j = r.entry then Entry.free else s.dir.entries[j] from
    getElem_set_fin _ _ _ _]
  split
  · exact fun used => absurd rfl used
  · rename_i other
    intro used key
    have slots := agree.2.1
    cases state : s.dir.entries[j].state with
    | free => exact used state
    | loading =>
      obtain ⟨k, q, hq, same, own⟩ := slots.filled state key
      obtain rfl : k = i := slots.slot_unique hq slot same
      obtain ⟨k', hk'⟩ := slots.2.1 j state
      obtain ⟨q', hq', rfl⟩ : ∃ q', s.load.slots[k'] = some q' ∧ q'.entry = j := by simpa using hk'
      have own' := (slots.1 k' q' hq').2.1
      obtain rfl : k' = k := Option.some.inj (own'.symm.trans own)
      obtain rfl : q' = r := Option.some.inj (hq'.symm.trans slot)
      exact other rfl
    | ready => exact Directory.visibleEntry_none.mp hidden j ((Entry.visible_iff _).mpr (.inl state)) key
    | shown => exact Directory.visibleEntry_none.mp hidden j ((Entry.visible_iff _).mpr (.inr state)) key

/-- R67, R75: navigation that waited on a load, of which nothing is left, passes to WAIT_MISS and captures the key. -/
theorem State.loadEnded_misses {t : State} {k : Key} (waits : t.nav.cond = .waitLoad) (wants : t.nav.wantedKey = some k)
    (absent : t.dir.lookup k = .absent) :
    t.loadEnded k = if t.nav.missLocked then { t with nav := { t.nav with cond := .waitMiss } }
      else { t with nav := { t.nav with
        cond := .waitMiss, missKey := some k, missLocked := true } }.post (.miss k) := by
  rw [State.loadEnded, if_pos (by simp [Navigation.waiting, waits, wants]), State.evaluate_absent wants absent,
    State.tellCondition_none]
  · unfold State.captureMiss
    split <;> rename_i locked
    · rw [if_pos (show t.nav.missLocked = true from locked)]; rfl
    · rw [if_neg (show ¬ t.nav.missLocked = true from locked)]; rfl
  · unfold State.captureMiss
    left
    split <;> simp [waits, State.setNav]

end Sys2Proof.Machine

section
open Sys2Proof Sys2Proof.Machine

/-- Settles O15, by the first byte of the DATA. -/
theorem brokenStreamEndsItsLoad : Obligations.BrokenStreamEndsItsLoad := by
  rintro s b tag i r byte rest e rfl short accepts slot running kind breaks
  have allowed := lengthAllowed_dataBytes (i := i) (bytes := byte :: rest) (by simp) (Nat.succ_le_succ short)
  have exec := State.take_frameOf accepts allowed (dataRule_fatal short slot running kind breaks)
  have code : e.code = if e = .badEscape then 1 else 2 := by
    rcases breaks with ⟨-, -, -, rfl⟩ | ⟨-, -, rfl⟩ <;> rfl
  exact ⟨_, State.loadEnded_tellsKey _ _, code ▸ exec⟩

/-- Settles O16: both ends leave the same state, up to the notice, before navigation is told. -/
theorem loadsEndWithoutCommit : Obligations.LoadsEndWithoutCommit := by
  rintro s b tag i rfl
  refine ⟨fun idle => ?_, fun r slot => ⟨fun accepts => ?_, fun running => ?_, ?_⟩⟩
  · change execTimeout i s = _
    rw [execTimeout, idle]
    exact ite_self _
  · exact ⟨_, State.loadEnded_tellsKey _ _, State.take_frameOf accepts rfl (cancelLoadRule_cancels slot)⟩
  · exact ⟨_, State.loadEnded_tellsKey _ _, execTimeout_ends slot running⟩
  · rintro agree waits wants hidden t u rfl rfl
    have absent := State.unloaded_absent agree slot hidden
    refine ⟨fun accepts => ?_, fun running => ?_⟩
    · have rule := cancelLoadRule_cancels slot
      rw [State.loadEnded_misses (t := s.unloaded i r) waits wants absent] at rule
      exact State.take_frameOf accepts rfl rule
    · refine (execTimeout_ends slot running).trans (congrArg _ ?_)
      have nav := (s.unloaded i r).post_nav (.streamFault i .timeout r.offset)
      rw [State.loadEnded_misses (by rw [nav]; exact waits) (by rw [nav]; exact wants)
        (by rw [State.post_dir]; exact absent), nav]
      rfl

end
end

section
/-! SUPPORT. What a DATA does to its stream: the decoding of its bytes element by element, and the state that is left
(R27 to R38). -/

namespace Sys2Proof.Machine

/-! ### One byte -/

theorem StreamWork.byte_text {w : StreamWork} (kind : w.slot.kind = .text) (escape : Byte) (codes : List ControlEntry)
    (b : Byte) : w.byte escape codes b = (w.count 1).textByte escape codes b := by
  unfold StreamWork.byte
  split
  · rfl
  · rename_i raw
    cases kind.symm.trans raw

theorem StreamWork.setText_self {w : StreamWork} {t : TextState} (h : w.slot.text = t) : w.setText t = w := by
  subst h; rfl

/-- The bytes of an element leave nothing of the states between them. -/
theorem StreamWork.setText_count_setText (w : StreamWork) (n : Nat) (t u : TextState) :
    ((w.setText t).count n).setText u = (w.count n).setText u := rfl

@[simp] theorem StreamWork.write_kind (w : StreamWork) (cells : List Byte) (next : Nat) :
    (w.write cells next).slot.kind = w.slot.kind := by rw [StreamWork.write_eq]
@[simp] theorem StreamWork.write_text (w : StreamWork) (cells : List Byte) (next : Nat) :
    (w.write cells next).slot.text = w.slot.text := by rw [StreamWork.write_eq]

/-- What a byte is as a cell: any byte of a RAW stream, in which no mark is open, and a byte of a TEXT stream between
elements that is not the escape value. -/
abbrev StreamWork.Cells (w : StreamWork) (escape : Byte) (bytes : List Byte) : Prop :=
  (w.slot.kind = .raw ∧ w.slot.openMark = none) ∨
    (w.slot.kind = .text ∧ w.slot.text = .plain ∧ escape ∉ bytes)

theorem StreamWork.byte_cell {w : StreamWork} {escape b : Byte} {rest : List Byte} (codes : List ControlEntry)
    (h : w.Cells escape (b :: rest)) :
    w.byte escape codes b = .ok ((w.write [b] (w.slot.position + 1)).count 1) ∧
      ((w.write [b] (w.slot.position + 1)).count 1).Cells escape rest := by
  have moved : ((w.write [b] (w.slot.position + 1)).count 1).slot.openMark =
      (w.slot.leaving w.marks (w.slot.position + 1)).1 := by rw [StreamWork.write_eq]; rfl
  rcases h with ⟨kind, shut⟩ | ⟨kind, plain, not⟩
  · refine ⟨?_, .inl ⟨(w.write_kind [b] _).trans kind, ?_⟩⟩
    · have raw : w.byte escape codes b = .ok ((w.count 1).rawByte b) := by
        unfold StreamWork.byte
        split
        · rename_i text
          cases kind.symm.trans text
        · rfl
      rw [raw, StreamWork.rawByte_eq (w := w.count 1) b shut, StreamWork.count_write]
      rfl
    · rw [moved, LoadSlot.leaving, shut, apply_ite Prod.fst, ite_self]
  · rw [List.mem_cons, not_or] at not
    refine ⟨?_, .inr ⟨(w.write_kind [b] _).trans kind, (w.write_text [b] _).trans plain, not.2⟩⟩
    rw [StreamWork.byte_text kind, StreamWork.textByte, show (w.count 1).slot.text = .plain from plain]
    simp only [if_neg (Ne.symm not.1), StreamWork.putCell_eq, StreamWork.count_write]
    rfl

/-! ### The bytes of a DATA -/

section
variable {escape : Byte} {codes : List ControlEntry}

theorem decodeBytes_complete {w : StreamWork} (h : w.slot.complete = true) (k : Nat) (bytes : List Byte) :
    decodeBytes escape codes w k bytes = .done w k bytes.length := by
  cases bytes with
  | nil => rfl
  | cons b rest => rw [decodeBytes, if_pos h]; rfl

theorem decodeBytes_cons {w w' : StreamWork} {b : Byte} (running : w.slot.complete = false)
    (step : w.byte escape codes b = .ok w') (k : Nat) (rest : List Byte) :
    decodeBytes escape codes w k (b :: rest) = decodeBytes escape codes w' (k + 1) rest := by
  rw [decodeBytes, if_neg (by rw [running]; decide), step]

/-- R28, R37, R38: cells are written up to the end of the page, and the rest is discarded. -/
theorem decodeBytes_cells {w : StreamWork} {bytes : List Byte} (cells : w.Cells escape bytes) (ends : w.Ends)
    (le : w.slot.position ≤ 1280) (k : Nat) {n : Nat} (hn : n = min bytes.length (1280 - w.slot.position)) :
    decodeBytes escape codes w k bytes =
      .done ((w.write (bytes.take n) (w.slot.position + n)).count n) (k + n) (bytes.length - n) := by
  induction bytes generalizing w k n with
  | nil =>
    obtain rfl : n = 0 := by simpa using hn
    rw [List.take_nil, StreamWork.write_nil, Nat.add_zero, StreamWork.moveTo_self ends]
    rfl
  | cons b rest ih =>
    rw [List.length_cons] at hn
    by_cases room : w.slot.position < 1280
    · obtain ⟨step, cells'⟩ := StreamWork.byte_cell codes cells
      obtain ⟨m, rfl⟩ : ∃ m, n = m + 1 := ⟨n - 1, by omega⟩
      rw [decodeBytes_cons (by rw [ends]; exact decide_eq_false (by omega)) step]
      generalize hw : (w.write [b] (w.slot.position + 1)).count 1 = w' at cells'
      have at' : w'.slot.position = w.slot.position + 1 := by rw [← hw]; rfl
      rw [ih cells' (by rw [← hw]; rfl) (by omega) _ (by omega : m = min rest.length (1280 - w'.slot.position)), at',
        ← hw, StreamWork.count_write, StreamWork.write_write w [b] _ (p := w.slot.position + 1) rfl (by omega),
        StreamWork.count_count, List.take_succ_cons, List.length_cons, Nat.add_sub_add_right]
      simp only [List.singleton_append, Nat.add_comm 1 m, Nat.add_right_comm _ 1 m, Nat.add_assoc]
    · obtain rfl : n = 0 := by omega
      have stand : w.slot.position = 1280 := by omega
      rw [decodeBytes_complete (by rw [ends]; exact decide_eq_true (by omega)), List.take_zero, StreamWork.write_nil,
        Nat.add_zero, StreamWork.moveTo_self ends]
      rfl

/-- R28, R38: cells that the page has room for. -/
theorem decodeBytes_cells_fit {w : StreamWork} {bytes : List Byte} (cells : w.Cells escape bytes) (ends : w.Ends)
    (fit : w.slot.position + bytes.length ≤ 1280) (k : Nat) :
    decodeBytes escape codes w k bytes =
      .done ((w.write bytes (w.slot.position + bytes.length)).count bytes.length) (k + bytes.length) 0 := by
  rw [decodeBytes_cells cells ends (by omega) k (by omega : bytes.length = _), List.take_length, Nat.sub_self]

/-- R27: bytes that follow bytes which the page had room for. -/
theorem decodeBytes_append {w w' : StreamWork} {k k' : Nat} {xs : List Byte}
    (h : decodeBytes escape codes w k xs = .done w' k' 0) (ys : List Byte) :
    decodeBytes escape codes w k (xs ++ ys) = decodeBytes escape codes w' k' ys := by
  induction xs generalizing w k with
  | nil => cases h; rfl
  | cons b rest ih =>
    rw [List.cons_append]
    rw [decodeBytes] at h ⊢
    split at h
    · cases h
    · rename_i running
      rw [if_neg running]
      cases step : w.byte escape codes b with
      | ok v => rw [step] at h; exact ih h
      | error e => rw [step] at h; cases h

variable {w : StreamWork} (running : w.slot.complete = false) (kind : w.slot.kind = .text) (plain : w.slot.text = .plain)
include running kind plain

/-- R28: the escape value twice is a cell. -/
theorem decodeBytes_escape_escape (k : Nat) (rest : List Byte) :
    decodeBytes escape codes w k (escape :: escape :: rest) =
      decodeBytes escape codes ((w.write [escape] (w.slot.position + 1)).count 2) (k + 2) rest := by
  have first : w.byte escape codes escape = .ok ((w.count 1).setText .escape) := by
    rw [StreamWork.byte_text kind, StreamWork.textByte, show (w.count 1).slot.text = .plain from plain]
    exact if_pos rfl
  have second : ((w.count 1).setText .escape).byte escape codes escape =
      .ok ((w.write [escape] (w.slot.position + 1)).count 2) := by
    rw [StreamWork.byte_text (w := (w.count 1).setText .escape) kind, StreamWork.textByte]
    refine (if_pos rfl).trans (congrArg _ ?_)
    rw [StreamWork.setText_count_setText, StreamWork.count_count, StreamWork.setText_self (w := w.count 2) plain,
      StreamWork.putCell_eq, StreamWork.count_write]
    rfl
  rw [decodeBytes_cons running first, decodeBytes_cons (w := (w.count 1).setText .escape) running second]

/-- R29: the escape value and a code begin the code's action. -/
theorem decodeBytes_control {code : Byte} {a : ControlAction} (ne : code ≠ escape) (acts : actionOf codes code = some a)
    (k : Nat) (rest : List Byte) :
    decodeBytes escape codes w k (escape :: code :: rest) =
      decodeBytes escape codes (((w.count 2).setText .escape).begin a) (k + 2) rest := by
  have first : w.byte escape codes escape = .ok ((w.count 1).setText .escape) := by
    rw [StreamWork.byte_text kind, StreamWork.textByte, show (w.count 1).slot.text = .plain from plain]
    exact if_pos rfl
  have second : ((w.count 1).setText .escape).byte escape codes code = .ok (((w.count 2).setText .escape).begin a) := by
    rw [StreamWork.byte_text (w := (w.count 1).setText .escape) kind, StreamWork.textByte]
    refine (if_neg ne).trans ?_
    rw [acts]
    rfl
  rw [decodeBytes_cons running first, decodeBytes_cons (w := (w.count 1).setText .escape) running second]

/-- R31. -/
theorem decodeBytes_lineEnd {code : Byte} (ne : code ≠ escape) (acts : actionOf codes code = some .lineEnd) (k : Nat)
    (rest : List Byte) :
    decodeBytes escape codes w k (escape :: code :: rest) = decodeBytes escape codes
      ((w.write (List.replicate ((w.slot.position / 40 + 1) * 40 - w.slot.position) 0)
        ((w.slot.position / 40 + 1) * 40)).count 2) (k + 2) rest := by
  rw [decodeBytes_control running kind plain ne acts, StreamWork.begin, ← StreamWork.count_write]
  rw [show ((w.count 2).setText .escape).setText .plain = w.count 2 from StreamWork.setText_self (w := w.count 2) plain,
    StreamWork.lineEnd_eq]
  rfl

/-- R31. -/
theorem decodeBytes_pageEnd {code : Byte} (ne : code ≠ escape) (acts : actionOf codes code = some .pageEnd) (k : Nat)
    (rest : List Byte) :
    decodeBytes escape codes w k (escape :: code :: rest) = decodeBytes escape codes
      ((w.write (List.replicate (1280 - w.slot.position) 0) 1280).count 2) (k + 2) rest := by
  rw [decodeBytes_control running kind plain ne acts, StreamWork.begin, ← StreamWork.count_write]
  rw [show ((w.count 2).setText .escape).setText .plain = w.count 2 from StreamWork.setText_self (w := w.count 2) plain,
    StreamWork.pageEnd_eq]
  rfl

/-- R35. -/
theorem decodeBytes_markClose {code : Byte} (ne : code ≠ escape) (acts : actionOf codes code = some .markClose) (k : Nat)
    (rest : List Byte) :
    decodeBytes escape codes w k (escape :: code :: rest) =
      decodeBytes escape codes (w.markClose.count 2) (k + 2) rest := by
  rw [decodeBytes_control running kind plain ne acts, StreamWork.begin]
  rw [show ((w.count 2).setText .escape).setText .plain = w.count 2 from StreamWork.setText_self (w := w.count 2) plain,
    StreamWork.markClose, StreamWork.markClose, StreamWork.closeMark_eq, StreamWork.closeMark_eq]
  rfl

/-- R32. -/
theorem decodeBytes_repeat {code : Byte} (ne : code ≠ escape) (acts : actionOf codes code = some .repeatCell)
    (ends : w.Ends) (le : w.slot.position ≤ 1280) (k : Nat) (n p : Byte) (rest : List Byte) :
    decodeBytes escape codes w k (escape :: code :: n :: p :: rest) = decodeBytes escape codes
      ((w.write (List.replicate (min n.toNat (1280 - w.slot.position)) p)
        (min 1280 (w.slot.position + n.toNat))).count 4) (k + 4) rest := by
  have count : ((w.count 2).setText .repeatCount).byte escape codes n = .ok ((w.count 3).setText (.repeatPattern n)) :=
    StreamWork.byte_text (w := (w.count 2).setText .repeatCount) kind escape codes n
  have pattern : ((w.count 3).setText (.repeatPattern n)).byte escape codes p = .ok ((w.count 4).repeatCell p n.toNat) := by
    rw [StreamWork.byte_text (w := (w.count 3).setText (.repeatPattern n)) kind, StreamWork.textByte]
    refine congrArg Except.ok (congrArg (StreamWork.repeatCell · p n.toNat) ?_)
    exact StreamWork.setText_self (w := w.count 4) plain
  rw [decodeBytes_control running kind plain ne acts, StreamWork.begin]
  rw [show ((w.count 2).setText .escape).setText .repeatCount = (w.count 2).setText .repeatCount from rfl,
    decodeBytes_cons (w := (w.count 2).setText .repeatCount) running count,
    decodeBytes_cons (w := (w.count 3).setText (.repeatPattern n)) running pattern,
    StreamWork.repeatCell_eq (w := w.count 4) p n.toNat ends le, StreamWork.count_write]
  rfl

/-- R33. -/
theorem decodeBytes_skip {code : Byte} (ne : code ≠ escape) (acts : actionOf codes code = some .skip)
    (ends : w.Ends) (le : w.slot.position ≤ 1280) (k : Nat) (n : Byte) (rest : List Byte) :
    decodeBytes escape codes w k (escape :: code :: n :: rest) = decodeBytes escape codes
      ((w.write [] (min 1280 (w.slot.position + n.toNat))).count 3) (k + 3) rest := by
  have count : ((w.count 2).setText .skipCount).byte escape codes n = .ok ((w.count 3).skip n.toNat) := by
    rw [StreamWork.byte_text (w := (w.count 2).setText .skipCount) kind, StreamWork.textByte]
    refine congrArg Except.ok (congrArg (StreamWork.skip · n.toNat) ?_)
    exact StreamWork.setText_self (w := w.count 3) plain
  rw [decodeBytes_control running kind plain ne acts, StreamWork.begin]
  rw [show ((w.count 2).setText .escape).setText .skipCount = (w.count 2).setText .skipCount from rfl,
    decodeBytes_cons (w := (w.count 2).setText .skipCount) running count,
    StreamWork.skip_eq (w := w.count 3) n.toNat ends le, ← StreamWork.write_nil,
    StreamWork.count_write]
  rfl

/-- R35. -/
theorem decodeBytes_markOpen {code : Byte} (ne : code ≠ escape) (acts : actionOf codes code = some .markOpen)
    (k : Nat) (c : MarkClass) (rest : List Byte) :
    decodeBytes escape codes w k (escape :: code :: put8 c.code :: rest) =
      decodeBytes escape codes ((w.markOpen c).count 3) (k + 3) rest := by
  have cls : ((w.count 2).setText .markClass).byte escape codes (put8 c.code) = .ok ((w.markOpen c).count 3) := by
    rw [StreamWork.byte_text (w := (w.count 2).setText .markClass) kind, StreamWork.textByte]
    change (match readClass (put8 c.code) with | some c => _ | none => _) = _
    rw [readClass_code]
    change Except.ok _ = _
    rw [show (((w.count 2).setText .markClass).count 1).setText .plain = w.count 3 from
      StreamWork.setText_self (w := w.count 3) plain, StreamWork.markOpen_eq, StreamWork.markOpen_eq]
    rfl
  rw [decodeBytes_control running kind plain ne acts, StreamWork.begin]
  rw [show ((w.count 2).setText .escape).setText .markClass = (w.count 2).setText .markClass from rfl,
    decodeBytes_cons (w := (w.count 2).setText .markClass) running cls]

end

/-! ### The state that a DATA leaves -/

/-- The byte at `o` of a run of one byte from `first` on. -/
theorem getElem?_replicate_from (first n o : Nat) (p : Byte) :
    (if first ≤ o then (List.replicate n p)[o - first]? else none) =
      if first ≤ o ∧ o < first + n then some p else none := by
  rw [List.getElem?_replicate, ite_and]
  split
  · exact if_congr (by omega) rfl rfl
  · rfl

section
variable {s : State} {tag : Byte} {i : Fin 2} {r : LoadSlot} {bytes : List Byte}

theorem dataRule_done (one : 1 ≤ bytes.length) (most : bytes.length ≤ 256) (slot : s.load.slots[i] = some r)
    (running : r.complete = false) {w : StreamWork} {consumed discarded : Nat}
    (h : decodeBytes s.load.escape s.load.codes.toList (s.streamWork r) 0 bytes = .done w consumed discarded) :
    dataRule (put8 i.val :: bytes) s = (s.storeWork i w, dataReply w consumed discarded) := by
  have fits : ¬ (bytes.length = 0 ∨ 256 < bytes.length) := by omega
  simp only [dataRule, readBelow_slot, if_neg fits, slot, running, Bool.false_eq_true, if_false, h]

/-- R27: the state that is left by a stream's work, the record of which stands at `next`. -/
theorem State.storeWork_streamed {w : StreamWork} {consumed discarded next : Nat} {cell : Nat → Option Byte}
    {close : Option OpenMark × List Mark × Nat}
    (record : w.slot = { r with
      offset := r.offset + consumed
      position := next
      complete := decide (next = 1280)
      openMark := close.1
      dropped := close.2.2 })
    (marks : w.marks = close.2.1)
    (frames : ∀ (j : Fin 48) (o : Nat), o < 1280 → storeRead 0#8 w.frames (frameAddress j o) =
      if j = r.entry then (cell o).getD (s.dir.frameByte j o) else s.dir.frameByte j o) :
    s.Streamed ((s.storeWork i w).answer 0x11 tag (dataReply w consumed discarded).status
      (dataReply w consumed discarded).payload) tag i r consumed discarded next cell close where
  others := by
    have payload : (dataReply w consumed discarded).payload =
        putNat16 consumed ++ putNat16 discarded ++ [if next = 1280 then 2 else 1] ++
          (if r.kind = Kind.text then [put8 (next / 40), put8 (next % 40)] else putNat16 next) ++
          [put8 close.2.1.length, put8 close.2.2] := by
      simp only [dataReply, slotStateCode, putPosition, record, marks, decide_eq_true_eq]
      cases r.kind <;> rfl
    rw [payload]
    obtain ⟨slot, list, cells⟩ := w
    subst record marks
    rfl
  frames := frames

/-- R28: the frames after a run of cells was written from the write position on. -/
theorem State.frameByte_run {cells : List Byte} (wf : Memory.wf s.dir.frames = true)
    (fits : r.position + cells.length ≤ 1280) {j : Fin 48} {o : Nat} (ho : o < 1280) :
    storeRead 0#8 (writeFrameRun s.dir.frames r.entry r.position cells) (frameAddress j o) =
      if j = r.entry then (if r.position ≤ o then cells[o - r.position]? else none).getD (s.dir.frameByte j o)
      else s.dir.frameByte j o := by
  rw [read_writeFrameRun cells s.dir.frames r.entry j r.position o fits ho wf]
  by_cases mine : j = r.entry
  · by_cases low : r.position ≤ o
    · by_cases high : o < r.position + cells.length
      · rw [if_pos ⟨mine, low, high⟩, if_pos mine, if_pos low, List.getD_eq_getElem?_getD,
          List.getElem?_eq_getElem (by omega)]
        rfl
      · rw [if_neg (by omega), if_pos mine, if_pos low, List.getElem?_eq_none (by omega)]
        rfl
    · rw [if_neg (by omega), if_pos mine, if_neg low]
      rfl
  · rw [if_neg (fun h => mine h.1), if_neg mine]
    rfl

/-- R27: a DATA whose bytes are a run of cells and one move. -/
theorem exec_data_write {cells : List Byte} {next consumed discarded : Nat} {cell : Nat → Option Byte}
    (accepts : s.Accepts 0x11 (frameOf tag (put8 i.val :: bytes))) (wf : Memory.wf s.dir.frames = true)
    (slot : s.load.slots[i] = some r) (running : r.complete = false) (one : 1 ≤ bytes.length)
    (most : bytes.length ≤ 256)
    (decodes : decodeBytes s.load.escape s.load.codes.toList (s.streamWork r) 0 bytes =
      .done (((s.streamWork r).write cells next).count consumed) consumed discarded)
    (le : next ≤ 1280) (fits : r.position + cells.length ≤ 1280)
    (at' : ∀ o, o < 1280 → cell o = if r.position ≤ o then cells[o - r.position]? else none) :
    ∃ t, exec (.data (frameOf tag (put8 i.val :: bytes))) s = .next t ∧
      s.Streamed t tag i r consumed discarded next cell (r.leaving s.dir.entries[r.entry].marks next) := by
  refine ⟨_, State.take_frameOf accepts (lengthAllowed_dataBytes one most)
    (dataRule_done one most slot running decodes), State.storeWork_streamed ?_ ?_ fun j o ho => ?_⟩
  · have full : decide (next = 1280) = decide (1280 ≤ next) := by
      simp only [decide_eq_decide]; omega
    rw [full, StreamWork.write_eq]
    rfl
  · rw [StreamWork.write_eq]; rfl
  · rw [StreamWork.write_eq]
    exact (State.frameByte_run wf fits ho).trans (by rw [at' o ho])

end

end Sys2Proof.Machine

section
open Sys2Proof Sys2Proof.Machine

/-- Settles O12: each element is a run of cells and one move. -/
theorem dataFillsTheFrame : Obligations.DataFillsTheFrame := by
  rintro s b tag i r bytes marks rfl accepts wf slot running room plain shut rfl
  have stands : (s.streamWork r).slot.position = r.position := rfl
  have ends : (s.streamWork r).Ends := running.trans (decide_eq_false (by omega)).symm
  refine ⟨fun n cells one most hn => ?_, ?_, fun kind code ne => ⟨?_, ?_, ?_, ?_⟩⟩
  · have areCells : (s.streamWork r).Cells s.load.escape bytes := by
      cases kind : r.kind with
      | raw => exact .inl ⟨kind, shut kind⟩
      | text => exact .inr ⟨kind, plain, cells.resolve_left (by rw [kind]; decide)⟩
    have decodes := decodeBytes_cells (codes := s.load.codes.toList) areCells ends (Nat.le_of_lt room) 0 hn
    rw [Nat.zero_add] at decodes
    refine exec_data_write accepts wf slot running one most decodes
      (by omega)
      (by rw [List.length_take]; omega) fun o ho => ?_
    split
    · rename_i low
      rw [List.getElem?_take]
      split
      · rfl
      · exact List.getElem?_eq_none (by omega)
    · rfl
  · rintro kind rfl
    refine exec_data_write (cells := [s.load.escape]) accepts wf slot running (by simp) (by simp)
      (decodeBytes_escape_escape running kind plain 0 []) (by omega) (by simpa using room) fun o ho => ?_
    by_cases here : o = r.position
    · subst here; simp
    · rw [if_neg here]
      split
      · exact (List.getElem?_eq_none (by simp only [List.length_singleton]; omega)).symm
      · rfl
  · rintro n p rfl acts
    refine exec_data_write accepts wf slot running (by simp) (by simp)
      (decodeBytes_repeat running kind plain ne acts ends (Nat.le_of_lt room) 0 n p []) (by omega)
      (by rw [List.length_replicate]; omega) fun o ho => ?_
    rw [getElem?_replicate_from]
    exact if_congr (by omega) rfl rfl
  · rintro n rfl acts
    refine exec_data_write accepts wf slot running (by simp) (by simp)
      (decodeBytes_skip running kind plain ne acts ends (Nat.le_of_lt room) 0 n []) (by omega)
      (Nat.le_of_lt room) fun o ho => ?_
    simp
  · rintro rfl acts
    refine exec_data_write accepts wf slot running (by simp) (by simp)
      (decodeBytes_lineEnd running kind plain ne acts 0 []) (by omega)
      (by rw [List.length_replicate]; omega) fun o ho => ?_
    rw [getElem?_replicate_from]
    exact if_congr (by omega) rfl rfl
  · rintro rest rfl short acts
    have decodes := decodeBytes_pageEnd running kind plain ne acts 0 rest (w := s.streamWork r) (escape := s.load.escape)
    rw [decodeBytes_complete (show ((StreamWork.write _ _ _).count _).slot.complete = true from rfl)] at decodes
    refine exec_data_write accepts wf slot running (by simp) (by simp only [List.length_cons]; omega) decodes (Nat.le_refl _)
      (by rw [List.length_replicate]; omega) fun o ho => ?_
    rw [getElem?_replicate_from]
    exact if_congr (by omega) rfl rfl

end
end

section
/-! SUPPORT. An inline mark: opened, laid over cells, and closed (R29, R35, R36). -/

namespace Sys2Proof.Machine

/-- R35: MARK_OPEN moves nothing. -/
theorem StreamWork.markOpen_ends {w : StreamWork} (h : w.Ends) (n : Nat) (c : MarkClass) :
    ((w.markOpen c).count n).Ends := by
  rw [StreamWork.markOpen_eq]; exact h

section
variable {w : StreamWork} {cells : List Byte} (c : MarkClass) (shut : w.slot.openMark = none)
include shut

/-- R35, R36: a mark opened and laid over cells: it is open still while its line lasts, and then it is closed. -/
theorem StreamWork.laid_eq :
    (((w.markOpen c).count 3).write cells (w.slot.position + cells.length)).count cells.length =
      let still := w.slot.position / 40 = (w.slot.position + cells.length) / 40
      let marks := if still then (w.marks, w.slot.dropped) else offered w.marks w.slot.dropped
        ⟨c, .supplied, Fin.ofNat 32 (w.slot.position / 40), w.slot.position % 40, 40 - w.slot.position % 40⟩
      { slot := { w.slot with
          offset := w.slot.offset + (cells.length + 3)
          position := w.slot.position + cells.length
          complete := decide (1280 ≤ w.slot.position + cells.length)
          openMark := if still then some ⟨c, w.slot.position / 40, w.slot.position % 40⟩ else none
          dropped := marks.2 }
        marks := marks.1
        frames := writeFrameRun w.frames w.slot.entry w.slot.position cells } := by
  have none : w.slot.closing w.marks (w.slot.position % 40) = (w.marks, w.slot.dropped) := by
    rw [LoadSlot.closing, shut]
  rw [StreamWork.markOpen_eq, none, StreamWork.write_eq]
  simp only [StreamWork.count, LoadSlot.leaving, LoadSlot.closing, Nat.add_assoc, Nat.add_comm 3]
  by_cases still : w.slot.position / 40 = (w.slot.position + cells.length) / 40
  · simp only [still, if_true]
  · simp only [still, if_false]

/-- R35: a mark opened, laid over cells that stay on its line, and closed. -/
theorem StreamWork.laid_within (short : w.slot.position % 40 + cells.length < 40) :
    ((((w.markOpen c).count 3).write cells (w.slot.position + cells.length)).count cells.length).markClose.count 2 =
      let marks := offered w.marks w.slot.dropped
        ⟨c, .supplied, Fin.ofNat 32 (w.slot.position / 40), w.slot.position % 40, cells.length⟩
      { slot := { w.slot with
          offset := w.slot.offset + (cells.length + 5)
          position := w.slot.position + cells.length
          complete := decide (1280 ≤ w.slot.position + cells.length)
          openMark := none
          dropped := marks.2 }
        marks := marks.1
        frames := writeFrameRun w.frames w.slot.entry w.slot.position cells } := by
  have still : w.slot.position / 40 = (w.slot.position + cells.length) / 40 := by omega
  have length : (w.slot.position + cells.length) % 40 - w.slot.position % 40 = cells.length := by omega
  rw [StreamWork.laid_eq c shut, StreamWork.markClose, StreamWork.closeMark_eq]
  simp only [if_pos still, StreamWork.count, LoadSlot.closing, LoadSlot.cell, Config.cellsPerLine, length]
  rfl

end

section
variable {s : State} {tag : Byte} {i : Fin 2} {r : LoadSlot} {bytes : List Byte}

/-- R35: a DATA that changes the open mark, the mark list and the dropped count alone. -/
theorem exec_data_marks {w : StreamWork} {consumed : Nat} {close : Option OpenMark × List Mark × Nat}
    (accepts : s.Accepts 0x11 (frameOf tag (put8 i.val :: bytes))) (slot : s.load.slots[i] = some r)
    (running : r.complete = false) (room : r.position < 1280) (one : 1 ≤ bytes.length) (most : bytes.length ≤ 256)
    (decodes : decodeBytes s.load.escape s.load.codes.toList (s.streamWork r) 0 bytes = .done w consumed 0)
    (work : w = { s.streamWork r with
      slot := { r with offset := r.offset + consumed, openMark := close.1, dropped := close.2.2 }
      marks := close.2.1 }) :
    ∃ t, exec (.data (frameOf tag (put8 i.val :: bytes))) s = .next t ∧
      s.Streamed t tag i r consumed 0 r.position (fun _ => none) close := by
  subst work
  refine ⟨_, State.take_frameOf accepts (lengthAllowed_dataBytes one most)
    (dataRule_done one most slot running decodes), State.storeWork_streamed ?_ rfl fun j o _ => ?_⟩
  · rw [show r.complete = decide (r.position = 1280) by rw [running, decide_eq_false (by omega)]]
  · exact (ite_self _).symm

/-- R35, R36: a DATA that opens a mark, lays it over cells and closes it, at the end of its line or before. -/
theorem exec_data_laid {w : StreamWork} {cells : List Byte} {consumed : Nat} {marks : List Mark × Nat}
    (accepts : s.Accepts 0x11 (frameOf tag (put8 i.val :: bytes))) (wf : Memory.wf s.dir.frames = true)
    (slot : s.load.slots[i] = some r) (running : r.complete = false) (one : 1 ≤ bytes.length)
    (most : bytes.length ≤ 256)
    (decodes : decodeBytes s.load.escape s.load.codes.toList (s.streamWork r) 0 bytes = .done w consumed 0)
    (fits : r.position + cells.length ≤ 1280)
    (work : w = {
      slot := { r with
        offset := r.offset + consumed
        position := r.position + cells.length
        complete := decide (1280 ≤ r.position + cells.length)
        openMark := none
        dropped := marks.2 }
      marks := marks.1
      frames := writeFrameRun s.dir.frames r.entry r.position cells }) :
    ∃ t, exec (.data (frameOf tag (put8 i.val :: bytes))) s = .next t ∧
      s.Streamed t tag i r consumed 0 (r.position + cells.length)
        (fun o => if r.position ≤ o then cells[o - r.position]? else none) (none, marks) := by
  subst work
  refine ⟨_, State.take_frameOf accepts (lengthAllowed_dataBytes one most)
    (dataRule_done one most slot running decodes), State.storeWork_streamed ?_ rfl fun j o ho => ?_⟩
  · rw [show decide (r.position + cells.length = 1280) = decide (1280 ≤ r.position + cells.length) by
      simp only [decide_eq_decide]; omega]
  · exact State.frameByte_run wf fits ho

end

end Sys2Proof.Machine

section
open Sys2Proof Sys2Proof.Machine

/-- Settles O13: the mark is opened, the cells are a run, and the mark is closed at its own close or by the line. -/
theorem dataLaysAnInlineMark : Obligations.DataLaysAnInlineMark := by
  rintro s b tag i r opening closing c cells bytes line marks rfl accepts wf slot running kind plain hline rfl ho hc
    notEscape opens closes
  have room : r.position < 1280 := by omega
  have theLine : Fin.ofNat 32 ((s.streamWork r).slot.position / 40) = line :=
    Fin.ext (by rw [show (s.streamWork r).slot.position = r.position from rfl, hline]; simp)
  have ends : (s.streamWork r).Ends := running.trans (decide_eq_false (by change ¬ 1280 ≤ r.position; omega)).symm
  have opened : ∀ rest, decodeBytes s.load.escape s.load.codes.toList (s.streamWork r) 0
      ([s.load.escape, opening, put8 c.code] ++ rest) = decodeBytes s.load.escape s.load.codes.toList
        (((s.streamWork r).markOpen c).count 3) 3 rest :=
    decodeBytes_markOpen running kind plain ho opens 0 c
  have laid : ∀ k, r.position + cells.length ≤ 1280 → decodeBytes s.load.escape s.load.codes.toList
      (((s.streamWork r).markOpen c).count 3) k cells = .done
        (((((s.streamWork r).markOpen c).count 3).write cells (r.position + cells.length)).count cells.length)
        (k + cells.length) 0 := fun k fit => by
    have at' : (((s.streamWork r).markOpen c).count 3).slot.position = r.position := by
      rw [StreamWork.markOpen_eq]; rfl
    have are : (((s.streamWork r).markOpen c).count 3).Cells s.load.escape cells := by
      rw [StreamWork.markOpen_eq]; exact .inr ⟨kind, plain, notEscape⟩
    have := decodeBytes_cells_fit (codes := s.load.codes.toList) are (StreamWork.markOpen_ends ends 3 c)
      (by rw [at']; exact fit) k
    rwa [at'] at this
  have laidWork := fun shut => StreamWork.laid_eq (w := s.streamWork r) (cells := cells) c shut
  refine ⟨?_, ?_, ?_, ?_⟩
  · rintro rfl
    refine exec_data_marks accepts slot running room (by simp) (by simp) (opened []) ?_
    rw [StreamWork.markOpen_eq, ← hline]
    rfl
  · rintro rfl
    refine exec_data_marks accepts slot running room (by simp) (by simp)
      (decodeBytes_markClose running kind plain hc closes 0 []) ?_
    rw [StreamWork.markClose, StreamWork.closeMark_eq]
    rfl
  · rintro rfl shut short
    have fit : r.position + cells.length < 1280 := by omega
    have decodes := opened (cells ++ [s.load.escape, closing])
    rw [decodeBytes_append (laid 3 (Nat.le_of_lt fit)), decodeBytes_markClose _ _ _ hc closes,
      show 3 + cells.length + 2 = cells.length + 5 by omega] at decodes
    · refine exec_data_laid accepts wf slot running (by simp) (by simp; omega)
        (by rw [List.append_assoc]; exact decodes) (Nat.le_of_lt fit) ?_
      exact (StreamWork.laid_within (w := s.streamWork r) c shut short).trans (by rw [theLine]; rfl)
    · exact (congrArg (·.slot.complete) (laidWork shut)).trans (decide_eq_false (by change ¬ 1280 ≤ r.position + _; omega))
    · exact (congrArg (·.slot.kind) (laidWork shut)).trans kind
    · exact (congrArg (·.slot.text) (laidWork shut)).trans plain
  · rintro rfl shut most long fit
    have decodes := opened cells
    rw [laid 3 fit, show 3 + cells.length = cells.length + 3 by omega] at decodes
    refine exec_data_laid accepts wf slot running (by simp) (by simp; omega) decodes fit ?_
    have leaves : ¬ (s.streamWork r).slot.position / 40 = ((s.streamWork r).slot.position + cells.length) / 40 := by
      change ¬ r.position / 40 = (r.position + cells.length) / 40
      omega
    refine (laidWork shut).trans ?_
    simp only [if_neg leaves, theLine]
    rfl

end
end

section
/-! SUPPORT. The control-code table: which entries are consulted, how it is read, and whether it is taken (R30, R47). -/

namespace Sys2Proof.Machine

/-! ### The consulted entries -/

/-- R30: the first entry with the end flag is the last consulted. -/
theorem consulted_take {l : List ControlEntry} {i : Nat} {e : ControlEntry} (he : l[i]? = some e) (last : e.last = true)
    (before : ∀ j c, j < i → l[j]? = some c → c.last = false) : consulted l = l.take (i + 1) := by
  induction l generalizing i with
  | nil => cases he
  | cons c rest ih =>
    cases i with
    | zero =>
      obtain rfl : c = e := Option.some.inj he
      rw [consulted, if_pos last]; rfl
    | succ i =>
      rw [consulted, if_neg (by rw [before 0 c (Nat.succ_pos i) rfl]; decide), List.take_succ_cons,
        ih he fun j d hj hd => before (j + 1) d (by omega) hd]

/-- R30: without an end flag all entries are consulted. -/
theorem consulted_all {l : List ControlEntry} (h : ∀ e ∈ l, e.last = false) : consulted l = l := by
  induction l with
  | nil => rfl
  | cons c rest ih =>
    rw [List.forall_mem_cons] at h
    rw [consulted, if_neg (by rw [h.1]; decide), ih h.2]

/-- A code that no two entries share is found at the entry that holds it. -/
theorem find?_code {l : List ControlEntry} (nodup : (l.filterMap ControlEntry.code).Nodup) {e : ControlEntry}
    (he : e ∈ l) {b : Byte} (code : e.code = some b) : (l.find? fun c => c.code == some b) = some e := by
  induction l with
  | nil => cases he
  | cons c rest ih =>
    have tail : (rest.filterMap ControlEntry.code).Nodup :=
      nodup.sublist ((List.sublist_cons_self c rest).filterMap _)
    rcases List.mem_cons.mp he with rfl | later
    · exact List.find?_cons_of_pos (by simp [code])
    · rw [List.find?_cons_of_neg, ih tail later]
      intro same
      have same : c.code = some b := by simpa using same
      rw [List.filterMap_cons_some same, List.nodup_cons] at nodup
      exact nodup.1 (List.mem_filterMap.mpr ⟨e, later, code⟩)

/-- R29, R30: the action of a code is that of the consulted entry that holds it. -/
theorem actionOf_iff {codes : List ControlEntry} (nodup : ((consulted codes).filterMap ControlEntry.code).Nodup)
    (code : Byte) (a : ControlAction) :
    actionOf codes code = some a ↔ ∃ e ∈ consulted codes, e.code = some code ∧ e.action = some a := by
  rw [actionOf, Option.bind_eq_some_iff]
  constructor
  · rintro ⟨e, found, acts⟩
    exact ⟨e, List.mem_of_find?_eq_some found, by simpa using List.find?_some found, acts⟩
  · rintro ⟨e, he, holds, acts⟩
    exact ⟨e, find?_code nodup he holds, acts⟩

/-! ### Reading the table -/

theorem readAction_eq (b : Byte) : readAction b =
    [ControlAction.lineEnd, .pageEnd, .repeatCell, .skip, .markOpen, .markClose][b.toNat]? := by
  by_cases known : b.toNat < 6
  · obtain rfl | rfl | rfl | rfl | rfl | rfl : b = 0 ∨ b = 1 ∨ b = 2 ∨ b = 3 ∨ b = 4 ∨ b = 5 := by bv_omega
    all_goals rfl
  · rw [List.getElem?_eq_none (show 6 ≤ b.toNat by omega), readAction]
    iterate 6 rw [if_neg (by rintro rfl; simp at known)]

theorem readControlEntries_length (table : List Byte) : (readControlEntries table).length = table.length / 3 := by
  induction table using readControlEntries.induct with
  | case1 c f a rest ih => simp only [readControlEntries, List.length_cons, ih]; omega
  | case2 table short =>
    match table, short with
    | [], _ => rfl
    | [_], _ => simp [readControlEntries]
    | [_, _], _ => simp [readControlEntries]
    | c :: f :: a :: rest, short => exact absurd rfl (short c f a rest)

theorem readControlEntries_getElem? (table : List Byte) (j : Nat) (h : 3 * j + 2 < table.length) :
    (readControlEntries table)[j]? =
      some (readControlEntry (table.getD (3 * j) 0) (table.getD (3 * j + 1) 0) (table.getD (3 * j + 2) 0)) := by
  induction table using readControlEntries.induct generalizing j with
  | case1 c f a rest ih =>
    cases j with
    | zero => rfl
    | succ j =>
      simp only [List.length_cons] at h
      rw [readControlEntries, List.getElem?_cons_succ, ih j (by omega)]
      rfl
  | case2 table short =>
    match table, short with
    | [_, _], _ => simp at h
    | c :: f :: a :: rest, short => exact absurd rfl (short c f a rest)

/-- R184: the 24 bytes of a table read as its entries. -/
theorem readControlEntries_spelled {table : List Byte} {codes : Vector ControlEntry 8} (h : SpellsCodes table codes) :
    readControlEntries table = codes.toList := by
  obtain ⟨length, spells⟩ := h
  refine List.ext_getElem? fun j => ?_
  by_cases hj : j < 8
  · obtain ⟨code, last, action⟩ := spells ⟨j, hj⟩
    rw [readControlEntries_getElem? table j (by omega), List.getElem?_eq_getElem (by simpa using hj), Vector.getElem_toList,
      readControlEntry, readAction_eq]
    change some _ = some codes[(⟨j, hj⟩ : Fin 8)]
    generalize codes[(⟨j, hj⟩ : Fin 8)] = e at code last action
    obtain ⟨c, a, l⟩ := e
    exact congrArg some (by rw [ControlEntry.mk.injEq]; exact ⟨code.symm, action.symm, last.symm⟩)
  · rw [List.getElem?_eq_none (by rw [readControlEntries_length, length]; omega), List.getElem?_eq_none (by simpa using hj)]

/-- R47: what a good table is. -/
theorem codesGood_iff {escape : Byte} {codes : List ControlEntry} : codesGood escape codes = true ↔
    (∀ c ∈ consulted codes, c.action ≠ none ∧ c.code ≠ some escape) ∧
      ((consulted codes).filterMap ControlEntry.code).Nodup := by
  simp [codesGood, forall_and, Option.isSome_iff_ne_none]

section
variable {s : State} {escape : Byte} {table : List Byte} {codes : Vector ControlEntry 8} (spells : SpellsCodes table codes)
include spells

theorem setControlCodesRule_taken (good : codesGood escape codes.toList = true) (idle : ∀ j : Fin 2, s.load.slots[j] = none) :
    setControlCodesRule (escape :: table) s =
      ({ s with load := { s.load with escape := escape, codes := codes } }, ⟨.ok, []⟩) := by
  have kept : (Vector.ofFn fun i : Fin 8 => codes.toList.getD i.val ⟨none, some .lineEnd, false⟩) = codes := by
    ext i hi
    simp [List.getD_eq_getElem?_getD]
  have free : ¬ (s.load.slots[(0 : Fin 2)] ≠ none ∨ s.load.slots[(1 : Fin 2)] ≠ none) := by
    rw [idle 0, idle 1]; simp
  simp only [setControlCodesRule, readControlEntries_spelled spells, good, Bool.not_true, Bool.false_eq_true, if_false, kept]
  exact if_neg free

theorem setControlCodesRule_badArgument (bad : ¬ codesGood escape codes.toList = true) :
    setControlCodesRule (escape :: table) s = (s, .bare .badArgument) := by
  rw [setControlCodesRule, readControlEntries_spelled spells, if_pos (by simpa using bad)]

theorem setControlCodesRule_slotState (good : codesGood escape codes.toList = true)
    (used : ∃ j : Fin 2, s.load.slots[j] ≠ none) :
    setControlCodesRule (escape :: table) s = (s, .bare .slotState) := by
  have busy : s.load.slots[(0 : Fin 2)] ≠ none ∨ s.load.slots[(1 : Fin 2)] ≠ none := by
    obtain ⟨j, hj⟩ := used
    rcases (by omega : j = 0 ∨ j = 1) with rfl | rfl
    · exact .inl hj
    · exact .inr hj
  simp only [setControlCodesRule, readControlEntries_spelled spells, good, Bool.not_true, Bool.false_eq_true, if_false]
  exact if_pos busy

end

end Sys2Proof.Machine
end

section
/-! SUPPORT. The settings of the touch unit, the notice mask, the drive and navigation (R71, R148, R177, R187). -/

namespace Sys2Proof.Machine

theorem putNat16_bytes (n : Nat) : putNat16 n = [put8 n, put8 (n / 256)] := by
  rw [putNat16, put16]
  have high : (BitVec.ofNat 16 n >>> 8).setWidth 8 = put8 (n / 256) := by
    apply BitVec.eq_of_toNat_eq
    simp only [BitVec.toNat_setWidth, BitVec.toNat_ushiftRight, BitVec.toNat_ofNat, put8_toNat, Nat.shiftRight_eq_div_pow]
    omega
  rw [high]
  congr 1
  apply BitVec.eq_of_toNat_eq
  simp only [BitVec.toNat_setWidth, BitVec.toNat_ofNat, put8_toNat]
  omega

theorem word16_putNat16 {n : Nat} (h : n < 65536) : (word16 (put8 n) (put8 (n / 256))).toNat = n := by
  rw [word16_toNat, put8_toNat, put8_toNat]; omega

theorem touchSettingsGood_iff {tOn tOff limit : Nat} : touchSettingsGood tOn tOff limit = true ↔
    16 ≤ tOn ∧ tOn ≤ 1000 ∧ 1 ≤ tOff ∧ tOff ≤ 999 ∧ tOff < tOn ∧ 1 ≤ limit ∧ limit ≤ 16 := by
  simp only [touchSettingsGood, Bool.and_eq_true, decide_eq_true_eq, and_assoc]

theorem driveSettingsGood_iff {strokeTime rate cap extra : Nat} : driveSettingsGood strokeTime rate cap extra = true ↔
    8 ≤ strokeTime ∧ strokeTime ≤ 32 ∧ 20 ≤ rate ∧ rate ≤ 200 ∧ 1 ≤ cap ∧ cap ≤ 20 ∧ extra ≤ 4 := by
  simp only [driveSettingsGood, Bool.and_eq_true, decide_eq_true_eq, and_assoc]

theorem setTouchRule_taken {tOn tOff limit : Nat} (good : touchSettingsGood tOn tOff limit = true) (s : State) :
    setTouchRule (putNat16 tOn ++ putNat16 tOff ++ [put8 limit]) s =
      ({ s with touch := { s.touch with
        zones := s.touch.zones.map (fun z : Zone => { z with run := 0 })
        tOn := tOn
        tOff := tOff
        holdLimit := limit } }, ⟨.ok, []⟩) := by
  have ranges := touchSettingsGood_iff.mp good
  have zones : (Vector.ofFn fun z : Fin 16 => { s.touch.zones[z] with run := 0 }) =
      s.touch.zones.map (fun z : Zone => { z with run := 0 }) := by
    ext z hz
    simp
  have short : (put8 limit).toNat = limit := by rw [put8_toNat]; omega
  rw [putNat16_bytes, putNat16_bytes]
  simp only [List.cons_append, List.nil_append, setTouchRule, word16_putNat16 (by omega : tOn < 65536),
    word16_putNat16 (by omega : tOff < 65536), short, good, if_true, Touch.configure, State.setTouch, zones]

theorem setTouchRule_badArgument {tOn tOff : BitVec 16} {limit : Byte}
    (bad : ¬ touchSettingsGood tOn.toNat tOff.toNat limit.toNat = true) (s : State) :
    setTouchRule (put16 tOn ++ put16 tOff ++ [limit]) s = (s, .bare .badArgument) := by
  simp only [put16, List.cons_append, List.nil_append, setTouchRule, word16_put16]
  exact if_neg bad

theorem setNoticeMaskRule_taken (mask : BitVec 9) (s : State) :
    setNoticeMaskRule (put16 (mask.setWidth 16)) s = ({ s with link := { s.link with mask := mask } }, ⟨.ok, []⟩) := by
  have small : (mask.setWidth 16).toNat < 512 := by
    have := mask.isLt
    rw [BitVec.toNat_setWidth]; omega
  have back : (mask.setWidth 16).setWidth 9 = mask := by
    apply BitVec.eq_of_toNat_eq
    have := mask.isLt
    simp only [BitVec.toNat_setWidth]
    omega
  simp only [put16, setNoticeMaskRule, word16_put16, if_pos small, back]
  rfl

theorem setNoticeMaskRule_badArgument {mask : BitVec 16} (bad : 512 ≤ mask.toNat) (s : State) :
    setNoticeMaskRule (put16 mask) s = (s, .bare .badArgument) := by
  simp only [put16, setNoticeMaskRule, word16_put16]
  exact if_neg (Nat.not_lt.mpr bad)

theorem setNavigationRule_taken (lock : Bool) (s : State) :
    setNavigationRule [putBool lock] s = ({ s with nav := { s.nav with lock := lock } },
      ⟨.ok, putNavigation { s with nav := { s.nav with lock := lock } }⟩) := by
  simp only [setNavigationRule, readBool_putBool]; rfl

theorem setNavigationRule_badArgument {v : Byte} (bad : 2 ≤ v.toNat) (s : State) :
    setNavigationRule [v] s = (s, .bare .badArgument) := by
  simp only [setNavigationRule, readBool_none v bad]

theorem setDriveRule_taken {strokeTime rate cap extra : Nat} (good : driveSettingsGood strokeTime rate cap extra = true)
    (s : State) : setDriveRule [put8 strokeTime, put8 rate, put8 cap, put8 extra] s =
      (({ s with drive := { s.drive with
        strokeTime := strokeTime, refillRate := rate, bankCap := cap, markExtra := extra } } : State).reform
          (fun _ => true), ⟨.ok, []⟩) := by
  have ranges := driveSettingsGood_iff.mp good
  have bytes : ∀ n, n ≤ 200 → (put8 n).toNat = n := fun n h => by rw [put8_toNat]; omega
  simp only [setDriveRule, bytes strokeTime (by omega), bytes rate (by omega), bytes cap (by omega),
    bytes extra (by omega), good, if_true]
  rfl

theorem setDriveRule_badArgument {strokeTime rate cap extra : Byte}
    (bad : ¬ driveSettingsGood strokeTime.toNat rate.toNat cap.toNat extra.toNat = true) (s : State) :
    setDriveRule [strokeTime, rate, cap, extra] s = (s, .bare .badArgument) := by
  simp only [setDriveRule, bad, Bool.false_eq_true, if_false]

/-- R142: without a waiting drive plan there is nothing to form again. -/
theorem State.reform_of_not_waiting {s : State} (h : ∀ p ∈ s.drive.cond.waiting, p.kind ≠ .drive)
    (rows : Fin 128 → Bool) : s.reform rows = s := by
  unfold State.reform
  split
  · rename_i p waits
    exact if_neg fun asks => h p (by rw [waits]; rfl) asks.1
  · rfl

end Sys2Proof.Machine
end

section
/-! SUPPORT. A calendar: how its slots are read, and which calendars are taken (R154). -/

namespace Sys2Proof.Machine

/-- R154: the bytes of a slot as it is given. -/
def CalendarSlot.bytes (c : CalendarSlot) : List Byte := [put8 c.first, put8 c.last, put8 c.count, putBool c.follow]

/-- R154: what the bytes of a slot say. -/
def CalendarSlot.args (c : CalendarSlot) : SlotArgs := ⟨c.first, c.last, c.count, if c.follow then 1 else 0⟩

theorem readSlotArgs_bytes {cs : List CalendarSlot}
    (h : ∀ c ∈ cs, c.count < 256 ∧ c.first < 256 ∧ c.last < 256) (junk : List Byte) :
    readSlotArgs (cs.flatMap CalendarSlot.bytes ++ junk) = cs.map CalendarSlot.args ++ readSlotArgs junk := by
  induction cs with
  | nil => rfl
  | cons c rest ih =>
    rw [List.forall_mem_cons] at h
    obtain ⟨⟨count, first, last⟩, later⟩ := h
    have follow : (putBool c.follow).toNat = if c.follow then 1 else 0 := by cases c.follow <;> rfl
    simp only [List.flatMap_cons, CalendarSlot.bytes, List.cons_append, List.nil_append, readSlotArgs, put8_toNat,
      Nat.mod_eq_of_lt count, Nat.mod_eq_of_lt first, Nat.mod_eq_of_lt last, follow, List.map_cons]
    rw [ih later]
    rfl

theorem readSlotArgs_getElem? (bytes : List Byte) (j : Nat) (h : 4 * j + 3 < bytes.length) :
    (readSlotArgs bytes)[j]? = some ⟨(bytes.getD (4 * j) 0).toNat, (bytes.getD (4 * j + 1) 0).toNat,
      (bytes.getD (4 * j + 2) 0).toNat, (bytes.getD (4 * j + 3) 0).toNat⟩ := by
  induction bytes using readSlotArgs.induct generalizing j with
  | case1 f l c fo rest ih =>
    cases j with
    | zero => rfl
    | succ j =>
      simp only [List.length_cons] at h
      rw [readSlotArgs, List.getElem?_cons_succ, ih j (by omega)]
      rfl
  | case2 bytes short =>
    match bytes, short with
    | [_, _, _], _ => simp at h
    | f :: l :: c :: fo :: rest, short => exact absurd rfl (short f l c fo rest)

theorem slotGood_iff {index : Nat} {a : SlotArgs} : slotGood index a = true ↔
    1 ≤ a.count ∧ a.count ≤ 8 ∧ a.follow ≤ 1 ∧ (a.follow = 0 ∨ index = 0) ∧
      (a.follow = 1 ∨ (a.first ≤ 31 ∧ a.last ≤ 31 ∧ a.first ≤ a.last)) := by
  simp [slotGood, and_assoc]

/-- R154: what a good calendar is. -/
theorem calendarGood_iff {slots : List SlotArgs} : calendarGood slots = true ↔
    1 ≤ slots.length ∧ slots.length ≤ 4 ∧ (∀ j a, slots[j]? = some a → slotGood j a = true) ∧
      ∀ l, l < 32 → ∃ a ∈ slots, a.follow = 0 ∧ a.first ≤ l ∧ l ≤ a.last := by
  have each : (slots.zipIdx.all fun p => slotGood p.2 p.1) = true ↔ ∀ j a, slots[j]? = some a → slotGood j a = true := by
    rw [List.all_eq_true]
    refine ⟨fun h j a ha => h (a, j) (List.mem_zipIdx_iff_getElem?.mpr ha), fun h p hp => ?_⟩
    exact h p.2 p.1 (List.mem_zipIdx_iff_getElem?.mp hp)
  have lines : (List.range 32).all (lineCovered slots) = true ↔
      ∀ l, l < 32 → ∃ a ∈ slots, a.follow = 0 ∧ a.first ≤ l ∧ l ≤ a.last := by
    simp [lineCovered, and_assoc]
  rw [calendarGood, Bool.and_eq_true, Bool.and_eq_true, Bool.and_eq_true, decide_eq_true_iff, decide_eq_true_iff, each, lines,
    and_assoc, and_assoc]

theorem setCalendarRule_badCalendar {n : Byte} {rest : List Byte}
    (bad : ¬ (n.toNat ≤ 4 ∧ calendarGood ((readSlotArgs rest).take n.toNat) = true)) (s : State) :
    setCalendarRule (n :: rest) s = (s, .bare .badCalendar) := by
  simp only [setCalendarRule, if_neg bad]

/-- R154: a slot that starts at its own first line, or a follow slot at the reading band. -/
abbrev CalendarSlot.Fresh (band : Fin 8) (c : CalendarSlot) : Prop :=
  (c.follow = false → c.first ≤ c.last ∧ c.last ≤ 31 ∧ c.cursor.val = c.first) ∧
    (c.follow = true → c.cursor = firstLineOfBand band)

theorem newSlot_args {band : Fin 8} {c : CalendarSlot} (h : c.Fresh band) : newSlot band c.args = c := by
  obtain ⟨first, last, count, follow, cursor⟩ := c
  cases follow with
  | false =>
    obtain ⟨-, -, start⟩ := h.1 rfl
    have here : Fin.ofNat 32 first = cursor := by
      rw [← show cursor.val = first from start]; simp
    simp only [newSlot, CalendarSlot.args, CalendarSlot.mk.injEq]
    exact ⟨trivial, trivial, trivial, rfl, here⟩
  | true => rw [show cursor = firstLineOfBand band from h.2 rfl]; rfl

theorem setCalendarRule_taken {s : State} {first : CalendarSlot} {others : List CalendarSlot} {junk : List Byte}
    (few : others.length + 1 ≤ 4) (one : ∀ c ∈ others, c.follow = false)
    (ranges : ∀ c ∈ first :: others, 1 ≤ c.count ∧ c.count ≤ 8 ∧ c.first < 256 ∧ c.last < 256 ∧ c.Fresh s.touch.band)
    (cover : ∀ l : Fin 32, ∃ c ∈ first :: others, c.follow = false ∧ c.first ≤ l.val ∧ l.val ≤ c.last) :
    setCalendarRule (put8 (others.length + 1) :: (first :: others).flatMap CalendarSlot.bytes ++ junk) s =
      ({ s with cal := { s.cal with
        slots := first :: others
        current := 0
        visitsLeft := first.count
        visit := none } }, ⟨.ok, []⟩) := by
  have number : (put8 (others.length + 1)).toNat = ((first :: others).map CalendarSlot.args).length := by
    rw [put8_toNat, List.length_map, List.length_cons]; omega
  have slots : (readSlotArgs ((first :: others).flatMap CalendarSlot.bytes ++ junk)).take (put8 (others.length + 1)).toNat =
      (first :: others).map CalendarSlot.args := by
    rw [readSlotArgs_bytes (fun c hc => ?_), number, List.take_left]
    obtain ⟨-, count, low, high, -⟩ := ranges c hc
    exact ⟨by omega, low, high⟩
  have good : calendarGood ((first :: others).map CalendarSlot.args) = true := by
    refine calendarGood_iff.mpr ⟨by simp, by simpa using few, fun j a ha => ?_, fun l hl => ?_⟩
    · obtain ⟨c, hc, rfl⟩ := by rwa [List.getElem?_map, Option.map_eq_some_iff] at ha
      obtain ⟨low, high, -, -, fresh, -⟩ := ranges c (List.mem_of_getElem? hc)
      refine slotGood_iff.mpr ⟨low, high, ?_, ?_, ?_⟩
      · simp only [CalendarSlot.args]; split <;> decide
      · cases j with
        | zero => exact .inr rfl
        | succ j => exact .inl (if_neg (by rw [one c (List.mem_of_getElem? hc)]; decide))
      · cases follow : c.follow with
        | true => exact .inl (if_pos follow)
        | false =>
          obtain ⟨order, last, -⟩ := fresh follow
          exact .inr ⟨Nat.le_trans order last, last, order⟩
    · obtain ⟨c, hc, follow, low, high⟩ := cover ⟨l, hl⟩
      exact ⟨c.args, List.mem_map_of_mem hc, if_neg (by rw [follow]; decide), low, high⟩
  have back : ((first :: others).map CalendarSlot.args).map (newSlot s.touch.band) = first :: others := by
    rw [List.map_map]
    refine (List.map_congr_left (g := id) fun c hc => ?_).trans (List.map_id _)
    obtain ⟨-, -, -, -, fresh⟩ := ranges c hc
    exact newSlot_args fresh
  rw [List.cons_append, setCalendarRule]
  simp only [slots]
  rw [if_pos ⟨by rw [number]; simpa using few, good⟩, Calendar.replace, back]
  rfl

end Sys2Proof.Machine
end

section
open Sys2Proof Sys2Proof.Machine

/-- Settles O21, by what each of the six rules makes of settings within their ranges. -/
theorem settingsAreTaken : Obligations.SettingsAreTaken := by
  refine ⟨fun codes => ⟨fun i least => ?_, fun none => ?_, fun nodup => actionOf_iff nodup⟩, ?_⟩
  · refine consulted_take (e := codes[i]) (by simp) least.1 fun j c hj hc => ?_
    have small : j < 8 := by omega
    obtain rfl : codes[j] = c := by simpa [small] using hc
    exact Bool.eq_false_iff.mpr (least.2 ⟨j, small⟩ hj)
  · refine consulted_all fun e he => ?_
    obtain ⟨j, hj, rfl⟩ := List.getElem_of_mem he
    exact none ⟨j, by simpa using hj⟩
  intro s b tag
  refine ⟨?_, ?_, ?_, ?_, ?_, ?_⟩
  · rintro escape table codes spells rfl accepts good nodup idle
    exact State.take_frameOf accepts (by simp only [List.length_cons, spells.1]; rfl)
      (setControlCodesRule_taken spells (codesGood_iff.mpr ⟨good, nodup⟩) idle)
  · rintro lock rfl accepts
    exact State.take_frameOf accepts rfl (setNavigationRule_taken lock s)
  · rintro tOn tOff limit rfl accepts h1 h2 h3 h4 h5 h6
    exact State.take_frameOf accepts rfl
      (setTouchRule_taken (touchSettingsGood_iff.mpr ⟨h1, h2, h3, by omega, h4, h5, h6⟩) s)
  · rintro mask rfl accepts
    exact State.take_frameOf accepts rfl (setNoticeMaskRule_taken mask s)
  · rintro strokeTime rate cap extra rfl accepts h1 h2 h3 h4 h5 h6 h7
    refine ⟨_, _, rfl, rfl, PinPath.reform _ _, fun waits => ?_,
      State.take_frameOf accepts rfl (setDriveRule_taken (driveSettingsGood_iff.mpr ⟨h1, h2, h3, h4, h5, h6, h7⟩) s)⟩
    exact State.reform_of_not_waiting (s := { s with drive := { s.drive with
      strokeTime := strokeTime, refillRate := rate, bankCap := cap, markExtra := extra } }) waits _
  · rintro first others junk rfl accepts few size one ranges cover
    have length : (put8 (others.length + 1) :: (first :: others).flatMap CalendarSlot.bytes ++ junk).length = 17 := by
      have slots : ((first :: others).flatMap CalendarSlot.bytes).length = 4 * (others.length + 1) := by
        simp [List.length_flatMap, CalendarSlot.bytes, Nat.mul_comm]; omega
      simp only [List.length_cons, List.length_append, slots] at *
      omega
    exact State.take_frameOf accepts ((congrArg (lengthAllowed 0x48) length).trans rfl)
      (setCalendarRule_taken few one (fun c hc => ranges c hc) cover)

/-- Settles O22, by the tests that each rule makes. -/
theorem settingsOutOfRangeAreRefused : Obligations.SettingsOutOfRangeAreRefused := by
  intro s b tag
  refine ⟨?_, ?_, ?_, ?_, ?_, ?_⟩
  · rintro escape table codes spells rfl accepts
    have allowed : lengthAllowed 0x14 (escape :: table).length = true := by simp only [List.length_cons, spells.1]; rfl
    refine ⟨fun bad => ?_, fun good nodup used => ?_⟩
    · refine State.take_frameOf accepts allowed (setControlCodesRule_badArgument spells fun good => ?_)
      obtain ⟨actions, nodup⟩ := codesGood_iff.mp good
      rcases bad with ⟨c, hc, bad⟩ | bad
      · exact bad.elim (actions c hc).1 (actions c hc).2
      · exact bad nodup
    · exact State.take_frameOf accepts allowed (setControlCodesRule_slotState spells (codesGood_iff.mpr ⟨good, nodup⟩) used)
  · rintro v rfl accepts bad
    exact State.take_frameOf accepts rfl (setNavigationRule_badArgument bad s)
  · rintro tOn tOff limit rfl accepts bad
    refine State.take_frameOf accepts rfl (setTouchRule_badArgument (fun good => ?_) s)
    have ranges := touchSettingsGood_iff.mp good
    bv_omega
  · rintro mask rfl accepts bad
    exact State.take_frameOf accepts rfl (setNoticeMaskRule_badArgument bad s)
  · rintro strokeTime rate cap extra rfl accepts bad
    refine State.take_frameOf accepts rfl (setDriveRule_badArgument (fun good => ?_) s)
    have ranges := driveSettingsGood_iff.mp good
    bv_omega
  · rintro n slots rfl size accepts bad
    refine State.take_frameOf accepts (by rw [List.length_cons, size]; rfl) (setCalendarRule_badCalendar (fun good => ?_) s)
    obtain ⟨few, good⟩ := good
    obtain ⟨one, -, each, cover⟩ := calendarGood_iff.mp good
    have at' : ∀ j, j < n.toNat → ((readSlotArgs slots).take n.toNat)[j]? = some ⟨(slots.getD (4 * j) 0).toNat,
        (slots.getD (4 * j + 1) 0).toNat, (slots.getD (4 * j + 2) 0).toNat, (slots.getD (4 * j + 3) 0).toNat⟩ :=
      fun j hj => by rw [List.getElem?_take, if_pos hj, readSlotArgs_getElem? slots j (by omega)]
    rcases bad with rfl | many | ⟨j, hj, bad⟩ | ⟨l, hl, uncovered⟩
    · simp at one
    · omega
    · have fits := slotGood_iff.mp (each j _ (at' j hj))
      simp only at fits
      bv_omega
    · obtain ⟨a, ha, follow, low, high⟩ := cover l hl
      obtain ⟨j, hj⟩ := List.mem_iff_getElem?.mp ha
      have hjn : j < n.toNat := by
        have := (List.getElem?_eq_some_iff.mp hj).1
        rw [List.length_take] at this
        omega
      obtain rfl := Option.some.inj ((at' j hjn).symm.trans hj)
      exact uncovered j hjn (BitVec.eq_of_toNat_eq follow) ⟨low, high⟩

end

section
/-! SUPPORT. Nothing on the pin path and nothing in navigation reads the response that the Link Interface holds, or the
number of commands it has answered: an operation gives the same on two states that differ in these alone (R22, R183). -/

namespace Sys2Proof.Machine

/-- The state with another response held and another number of commands answered. -/
def State.relink (s : State) (response : Option Response) (n : Nat) : State :=
  { s with link := { s.link with response := response, served := n } }

/-- A move, and whether it goes on, with another response held. -/
def relinkMove (response : Option Response) (n : Nat) (r : State × Bool) : State × Bool := (r.1.relink response n, r.2)

namespace State

variable (s : State) (response : Option Response) (n : Nat)

@[simp] theorem relink_dir : (s.relink response n).dir = s.dir := rfl
@[simp] theorem relink_nav : (s.relink response n).nav = s.nav := rfl
@[simp] theorem relink_comp : (s.relink response n).comp = s.comp := rfl
@[simp] theorem relink_pins : (s.relink response n).pins = s.pins := rfl
@[simp] theorem relink_cal : (s.relink response n).cal = s.cal := rfl
@[simp] theorem relink_newTarget (lines : List (Fin 32)) :
    (s.relink response n).newTarget lines = s.newTarget lines := rfl
@[simp] theorem relink_newMarkPins (lines : List (Fin 32)) :
    (s.relink response n).newMarkPins lines = s.newMarkPins lines := rfl
@[simp] theorem relink_targetChanges (target : Vector PinRow 128) :
    (s.relink response n).targetChanges target = s.targetChanges target := rfl

@[simp] theorem relink_setDir (x : Directory) : (s.relink response n).setDir x = (s.setDir x).relink response n := rfl
@[simp] theorem relink_setNav (x : Navigation) : (s.relink response n).setNav x = (s.setNav x).relink response n := rfl
@[simp] theorem relink_setComp (x : Compositor) : (s.relink response n).setComp x = (s.setComp x).relink response n := rfl
@[simp] theorem relink_setPins (x : PinField) : (s.relink response n).setPins x = (s.setPins x).relink response n := rfl
@[simp] theorem relink_setCal (x : Calendar) : (s.relink response n).setCal x = (s.setCal x).relink response n := rfl

theorem relink_post (m : Notice) : (s.relink response n).post m = (s.post m).relink response n := by
  rw [State.post, State.post, apply_ite (fun t : State => t.relink response n)]
  rfl

/-! ### Plans and visits -/

theorem relink_holdPlan (p : Plan) : (s.relink response n).holdPlan p = (s.holdPlan p).relink response n := by
  rw [State.holdPlan, State.holdPlan, apply_ite (fun t : State => t.relink response n)]
  rfl

theorem relink_askDrive (r : Fin 128) : (s.relink response n).askDrive r = relinkMove response n (s.askDrive r) := by
  unfold State.askDrive
  rw [show (s.relink response n).planMoves r = s.planMoves r from rfl]
  cases s.planMoves r with
  | nil => rfl
  | cons m ms => exact congrArg (·, true) (relink_holdPlan (s.reportDeferred r) response n _)

theorem relink_enterIdle : (s.relink response n).enterIdle = s.enterIdle.relink response n :=
  relink_post (s.setCal { s.cal with sched := .idle }) response n _

theorem relink_endVisit (v : LineVisit) : (s.relink response n).endVisit v = relinkMove response n (s.endVisit v) := by
  simp only [State.endVisit, relink_cal, relink_setCal, relink_enterIdle]
  rw [apply_ite (relinkMove response n)]
  rfl

theorem relink_rowDone (v : LineVisit) : (s.relink response n).rowDone v = relinkMove response n (s.rowDone v) := by
  rw [State.rowDone, State.rowDone, apply_ite (relinkMove response n)]
  exact if_congr Iff.rfl (relink_endVisit s response n v) rfl

theorem relink_calendarMove : (s.relink response n).calendarMove = relinkMove response n s.calendarMove := by
  unfold State.calendarMove
  rw [show (s.relink response n).cal.visit = s.cal.visit from rfl]
  cases s.cal.visit with
  | none => rfl
  | some v =>
    simp only
    rw [relink_askDrive]
    obtain ⟨t, held⟩ := s.askDrive (pinRow v.line v.row)
    cases held
    · exact relink_rowDone t response n v
    · rfl

theorem relink_runCalendar (fuel : Nat) :
    State.runCalendar fuel (s.relink response n) = (State.runCalendar fuel s).relink response n := by
  induction fuel generalizing s with
  | zero => rfl
  | succ fuel ih =>
    rw [State.runCalendar, State.runCalendar, relink_calendarMove]
    obtain ⟨t, more⟩ := s.calendarMove
    cases more
    · rfl
    · exact ih t

theorem relink_goOn (r : State × Bool) : State.goOn (relinkMove response n r) = (State.goOn r).relink response n := by
  obtain ⟨t, more⟩ := r
  cases more
  · rfl
  · exact relink_runCalendar t response n _

theorem relink_driveOn : (s.relink response n).driveOn = s.driveOn.relink response n :=
  relink_runCalendar (s.setCal { s.cal with sched := .driving, quiet := [] }) response n _

theorem relink_wake : (s.relink response n).wake = s.wake.relink response n := by
  unfold State.wake
  rw [show (s.relink response n).cal.sched = s.cal.sched from rfl]
  cases s.cal.sched with
  | idle => exact relink_driveOn s response n
  | driving | surveying | paused | supplyLow => rfl

theorem relink_rowNothing : (s.relink response n).rowNothing = s.rowNothing.relink response n := by
  unfold State.rowNothing
  rw [show (s.relink response n).cal = s.cal from rfl]
  cases s.cal.sched with
  | driving =>
    cases s.cal.visit with
    | none => exact relink_runCalendar s response n _
    | some v => exact (congrArg State.goOn (relink_rowDone s response n v)).trans (relink_goOn response n _)
  | idle | surveying | paused | supplyLow => rfl

theorem relink_reform (rows : Fin 128 → Bool) : (s.relink response n).reform rows = (s.reform rows).relink response n := by
  unfold State.reform
  rw [show (s.relink response n).drive.cond = s.drive.cond from rfl]
  cases s.drive.cond with
  | waitCharge p =>
    simp only
    rw [apply_ite (fun t : State => t.relink response n)]
    refine if_congr Iff.rfl ?_ rfl
    rw [relink_askDrive]
    obtain ⟨t, held⟩ := s.askDrive p.row
    cases held
    · exact relink_rowNothing t response n
    · rfl
  | noPlan | inFlight p => rfl

/-! ### Recomposition and navigation -/

theorem relink_recompose (lines : List (Fin 32)) :
    (s.relink response n).recompose lines = (s.recompose lines).relink response n := by
  simp only [State.recompose, relink_newTarget, relink_newMarkPins, relink_targetChanges, relink_comp, relink_pins,
    relink_setComp, relink_setPins, relink_reform, relink_wake]
  exact (apply_ite (fun t : State => t.relink response n) _ _ _).symm

theorem relink_showEntry (i : Fin 48) : (s.relink response n).showEntry i = (s.showEntry i).relink response n := by
  simp only [State.showEntry, relink_dir, relink_setDir, relink_recompose]
  exact (apply_ite (fun t : State => t.relink response n) _ _ _).symm

theorem relink_tellCondition (before : NavCondition) :
    (s.relink response n).tellCondition before = (s.tellCondition before).relink response n := by
  simp only [State.tellCondition, relink_nav, relink_comp, relink_recompose]
  exact (apply_ite (fun t : State => t.relink response n) _ _ _).symm

theorem relink_captureMiss (k : Key) : (s.relink response n).captureMiss k = (s.captureMiss k).relink response n := by
  simp only [State.captureMiss, relink_nav, relink_setNav, relink_post]
  exact (apply_ite (fun t : State => t.relink response n) _ _ _).symm

theorem relink_evaluate (cause : ShownCause) :
    (s.relink response n).evaluate cause = (s.evaluate cause).relink response n := by
  simp only [State.evaluate, relink_nav, relink_dir, relink_showEntry, relink_setNav, relink_post, relink_captureMiss]
  cases s.nav.wantedKey with
  | none => rfl
  | some k =>
    simp only
    cases s.dir.lookup k with
    | visible i => simp only [relink_tellCondition]
    | held i => simp only [relink_tellCondition]
    | loading j => simp only [relink_tellCondition]
    | absent => simp only [relink_tellCondition]

theorem relink_loadEnded (k : Key) : (s.relink response n).loadEnded k = (s.loadEnded k).relink response n := by
  simp only [State.loadEnded, relink_nav, relink_evaluate]
  exact (apply_ite (fun t : State => t.relink response n) _ _ _).symm

theorem relink_fatalStream (i : Fin 2) (r : LoadSlot) (e : StreamError) (offset : Nat) :
    (s.relink response n).fatalStream i r e offset = (s.fatalStream i r e offset).relink response n := by
  rw [State.fatalStream, State.fatalStream, ← relink_loadEnded, ← relink_post]
  rfl

end State

end Sys2Proof.Machine
end

section
/-! SUPPORT. A stream divided over two DATA (R22, R27, R34, R37). -/

namespace Sys2Proof.Machine

/-! ### The bytes -/

/-- R27: the end of a decoding before which `m` more bytes were consumed. -/
def DataEnd.after (m : Nat) : DataEnd → DataEnd
  | .done w consumed discarded => .done w (m + consumed) discarded
  | .fatal w e offset => .fatal w e offset

section
variable {escape : Byte} {codes : List ControlEntry}

theorem decodeBytes_after (m k : Nat) (bytes : List Byte) (w : StreamWork) :
    decodeBytes escape codes w (m + k) bytes = (decodeBytes escape codes w k bytes).after m := by
  induction bytes generalizing w k with
  | nil => rfl
  | cons b rest ih =>
    rw [decodeBytes, decodeBytes]
    split
    · rfl
    · cases w.byte escape codes b with
      | ok v => exact ih (k + 1) v
      | error e => rfl

/-- R27: every byte of a DATA is consumed or discarded. -/
theorem decodeBytes_counts {w w' : StreamWork} {k consumed discarded : Nat} {bytes : List Byte}
    (h : decodeBytes escape codes w k bytes = .done w' consumed discarded) :
    consumed + discarded = k + bytes.length := by
  induction bytes generalizing w k with
  | nil => cases h; rfl
  | cons b rest ih =>
    rw [List.length_cons]
    rw [decodeBytes] at h
    split at h
    · cases h; rfl
    · cases step : w.byte escape codes b with
      | ok v => rw [step] at h; have := ih h; omega
      | error e => rw [step] at h; cases h

/-- R37: nothing is discarded while the slot is not COMPLETE. -/
theorem decodeBytes_discards {w w' : StreamWork} {k consumed discarded : Nat} {bytes : List Byte}
    (h : decodeBytes escape codes w k bytes = .done w' consumed discarded) (running : w'.slot.complete = false) :
    discarded = 0 := by
  induction bytes generalizing w k with
  | nil => cases h; rfl
  | cons b rest ih =>
    rw [decodeBytes] at h
    split at h
    · rename_i complete
      cases h
      rw [running] at complete
      cases complete
    · cases step : w.byte escape codes b with
      | ok v => rw [step] at h; exact ih h
      | error e => rw [step] at h; cases h

/-- R37: what follows the end of the page is discarded. -/
theorem decodeBytes_append_complete {w w' : StreamWork} {k consumed discarded : Nat} {xs : List Byte}
    (h : decodeBytes escape codes w k xs = .done w' consumed discarded) (complete : w'.slot.complete = true)
    (ys : List Byte) :
    decodeBytes escape codes w k (xs ++ ys) = .done w' consumed (discarded + ys.length) := by
  induction xs generalizing w k with
  | nil => cases h; rw [List.nil_append, decodeBytes_complete complete, Nat.zero_add]
  | cons b rest ih =>
    rw [List.cons_append]
    rw [decodeBytes] at h ⊢
    split at h
    · rename_i ended
      cases h
      rw [if_pos ended, List.length_append, Nat.add_right_comm]
    · rename_i running
      rw [if_neg running]
      cases step : w.byte escape codes b with
      | ok v => rw [step] at h; exact ih h
      | error e => rw [step] at h; cases h

/-- R39: what follows a fatal error is not reached. -/
theorem decodeBytes_append_fatal {w w' : StreamWork} {k offset : Nat} {xs : List Byte} {e : StreamError}
    (h : decodeBytes escape codes w k xs = .fatal w' e offset) (ys : List Byte) :
    decodeBytes escape codes w k (xs ++ ys) = .fatal w' e offset := by
  induction xs generalizing w k with
  | nil => cases h
  | cons b rest ih =>
    rw [List.cons_append]
    rw [decodeBytes] at h ⊢
    split at h
    · cases h
    · rename_i running
      rw [if_neg running]
      cases step : w.byte escape codes b with
      | ok v => rw [step] at h; exact ih h
      | error e' => rw [step] at h; exact h

end

/-! ### The state between the two -/

/-- R27: what a DATA reports of its stream, after the counts of bytes. -/
def StreamWork.report (w : StreamWork) : List Byte :=
  [slotStateCode (some w.slot)] ++ putPosition w.slot ++ [put8 w.marks.length, put8 w.slot.dropped]

theorem dataReply_payload (w : StreamWork) (consumed discarded : Nat) :
    (dataReply w consumed discarded).payload = putNat16 consumed ++ putNat16 discarded ++ w.report := by
  simp only [dataReply, StreamWork.report, List.append_assoc]

theorem State.streamWork_storeWork (s : State) (i : Fin 2) (w : StreamWork) :
    (s.storeWork i w).streamWork w.slot = w := by
  have marks : (s.storeWork i w).dir.entries[w.slot.entry].marks = w.marks := by
    refine (congrArg Entry.marks (getElem_set_fin _ _ _ _)).trans ?_
    rw [if_pos rfl]
  rw [State.streamWork, marks]
  rfl

theorem State.storeWork_slot (s : State) (i : Fin 2) (w : StreamWork) :
    (s.storeWork i w).load.slots[i] = some w.slot :=
  (getElem_set_fin _ _ _ _).trans (if_pos rfl)

/-- The work of one entry's stream is put back once. -/
theorem State.storeWork_storeWork (s : State) (i : Fin 2) {w v : StreamWork} (h : v.slot.entry = w.slot.entry) :
    (s.storeWork i w).storeWork i v = s.storeWork i v := by
  have entry : (s.storeWork i w).dir.entries[w.slot.entry] = { s.dir.entries[w.slot.entry] with marks := w.marks } :=
    (getElem_set_fin _ _ _ _).trans (if_pos rfl)
  simp only [State.storeWork] at entry ⊢
  simp only [State.setLoad, State.setDir, Decoder.setSlot, Directory.setEntry, h, Vector.set_set] at entry ⊢
  rw [entry]

/-- R183: an answer from an empty buffer changes the response and the number of answers alone. -/
theorem State.answer_eq_relink {s : State} (empty : s.link.buffer = none) (code tag : Byte) (status : Status)
    (payload : List Byte) :
    s.answer code tag status payload = s.relink (some ⟨tag, code, status, payload⟩) (s.link.served + 1) := by
  rw [State.answer, Link.answer, ← empty]
  rfl

/-- R39: a stream's end answers nothing by itself. -/
theorem State.fatalStream_served (s : State) (i : Fin 2) (r : LoadSlot) (e : StreamError) (offset : Nat) :
    (s.fatalStream i r e offset).link.served = s.link.served :=
  congrArg (·.link.served) (s.relink_fatalStream s.link.response s.link.served i r e offset)

/-! ### Executing a DATA -/

section
variable {s : State} {tag : Byte} {i : Fin 2} {r : LoadSlot} {bytes : List Byte}
  (accepts : s.Accepts 0x11 (frameOf tag (put8 i.val :: bytes))) (slot : s.load.slots[i] = some r)
  (running : r.complete = false) (one : 1 ≤ bytes.length) (most : bytes.length ≤ 256)
include accepts slot running one most

theorem exec_data_done {w : StreamWork} {consumed discarded : Nat}
    (h : decodeBytes s.load.escape s.load.codes.toList (s.streamWork r) 0 bytes = .done w consumed discarded) :
    exec (.data (frameOf tag (put8 i.val :: bytes))) s = .next ((s.storeWork i w).answer 0x11 tag .ok
      (putNat16 consumed ++ putNat16 discarded ++ w.report)) := by
  rw [← dataReply_payload]
  exact State.take_frameOf accepts (lengthAllowed_dataBytes one most) (dataRule_done one most slot running h)

theorem exec_data_broken {w : StreamWork} {e : StreamError} {offset : Nat}
    (h : decodeBytes s.load.escape s.load.codes.toList (s.streamWork r) 0 bytes = .fatal w e offset) :
    exec (.data (frameOf tag (put8 i.val :: bytes))) s =
      .next (((s.storeWork i w).fatalStream i w.slot e offset).answer 0x11 tag .streamFault (e.code :: putNat32 offset)) :=
  State.take_frameOf accepts (lengthAllowed_dataBytes one most) (dataRule_broken one most slot running h)

end

/-! ### Executing the second DATA -/

theorem decodeBytes_entry {escape : Byte} {codes : List ControlEntry} {w v : StreamWork} {k : Nat} {bytes : List Byte}
    (h : (decodeBytes escape codes w k bytes).work = v) : v.slot.entry = w.slot.entry :=
  h ▸ (decodeBytes_goes escape codes bytes w k).entry

section
variable {s : State} {tag : Byte} {i : Fin 2} {w v : StreamWork} {bytes : List Byte} (awake : s.resetPin = false)
  (empty : s.link.buffer = none) (goesOn : w.slot.complete = false) (one : 1 ≤ bytes.length)
  (most : bytes.length ≤ 256) (response : Option Response) (n : Nat)
include awake empty goesOn one most

/-- R22, R27: a DATA that goes on with a stream the work of which was put back. -/
theorem exec_data_next_done {consumed discarded : Nat}
    (h : decodeBytes s.load.escape s.load.codes.toList w 0 bytes = .done v consumed discarded) :
    exec (.data (frameOf tag (put8 i.val :: bytes))) ((s.storeWork i w).relink response n) =
      .next (((s.storeWork i v).relink response n).answer 0x11 tag .ok
        (putNat16 consumed ++ putNat16 discarded ++ v.report)) := by
  have again : ((s.storeWork i w).relink response n).storeWork i v = (s.storeWork i v).relink response n :=
    congrArg (·.relink response n) (s.storeWork_storeWork i (decodeBytes_entry (congrArg DataEnd.work h)))
  rw [← s.streamWork_storeWork i w] at h
  rw [← again]
  exact exec_data_done (s := (s.storeWork i w).relink response n) ⟨awake, .inl empty⟩ (s.storeWork_slot i w) goesOn one
    most h

theorem exec_data_next_broken {e : StreamError} {offset : Nat}
    (h : decodeBytes s.load.escape s.load.codes.toList w 0 bytes = .fatal v e offset) :
    exec (.data (frameOf tag (put8 i.val :: bytes))) ((s.storeWork i w).relink response n) =
      .next ((((s.storeWork i v).fatalStream i v.slot e offset).relink response n).answer 0x11 tag .streamFault
        (e.code :: putNat32 offset)) := by
  have again : ((s.storeWork i w).relink response n).storeWork i v = (s.storeWork i v).relink response n :=
    congrArg (·.relink response n) (s.storeWork_storeWork i (decodeBytes_entry (congrArg DataEnd.work h)))
  rw [← s.streamWork_storeWork i w] at h
  rw [← State.relink_fatalStream, ← again]
  exact exec_data_broken (s := (s.storeWork i w).relink response n) ⟨awake, .inl empty⟩ (s.storeWork_slot i w) goesOn one
    most h

end

end Sys2Proof.Machine

section
open Sys2Proof Sys2Proof.Machine

/-- Settles O14: decoding goes on where it stood, and nothing of it reads the response of the first DATA. -/
theorem dataIsDecodedByteByByte : Obligations.DataIsDecodedByteByByte := by
  intro s t tag i r xs ys status payload hxs hys total slot running awake empty hexec hresp
  have xsOne := List.length_pos_iff.mpr hxs
  have ysOne := List.length_pos_iff.mpr hys
  have accepts : ∀ bytes, s.Accepts 0x11 (frameOf tag bytes) := fun _ => ⟨awake, .inl empty⟩
  have wholeOne : 1 ≤ (xs ++ ys).length := by rw [List.length_append]; omega
  have wholeMost : (xs ++ ys).length ≤ 256 := by rw [List.length_append]; exact total
  cases first : decodeBytes s.load.escape s.load.codes.toList (s.streamWork r) 0 xs with
  | fatal w e offset =>
    have run := exec_data_broken (accepts _) slot running xsOne (by omega) first
    obtain rfl := Host.Outcome.next.inj (run.symm.trans hexec)
    obtain ⟨rfl, -⟩ : Status.streamFault = status ∧ _ = payload := by simpa [State.answer, Link.answer] using hresp
    refine ⟨fun _ => ?_, fun r' _ ok => by cases ok⟩
    exact exec_data_broken (accepts _) slot running wholeOne wholeMost (decodeBytes_append_fatal first ys)
  | done w consumed discarded =>
    have run := exec_data_done (accepts _) slot running xsOne (by omega) first
    obtain rfl := Host.Outcome.next.inj (run.symm.trans hexec)
    obtain ⟨rfl, rfl⟩ : Status.ok = status ∧ putNat16 consumed ++ putNat16 discarded ++ w.report = payload := by
      simpa [State.answer, Link.answer] using hresp
    refine ⟨fun bad => absurd rfl bad, fun r' hr' _ => ?_⟩
    obtain rfl : w.slot = r' := Option.some.inj ((s.storeWork_slot i w).symm.trans hr')
    have counts := decodeBytes_counts first
    refine ⟨fun complete => ⟨consumed, discarded, w.report, rfl, by omega, ?_⟩, fun goesOn => ?_⟩
    · exact exec_data_done (accepts _) slot running wholeOne wholeMost (decodeBytes_append_complete first complete ys)
    · obtain rfl : discarded = 0 := decodeBytes_discards first goesOn
      obtain rfl : consumed = xs.length := by omega
      have whole := (decodeBytes_append first ys).trans (decodeBytes_after xs.length 0 ys w)
      rw [State.answer_eq_relink (show (s.storeWork i w).link.buffer = none from empty)]
      cases second : decodeBytes s.load.escape s.load.codes.toList w 0 ys with
      | done v consumed discarded =>
        rw [second] at whole
        have run := exec_data_done (tag := tag) (accepts _) slot running wholeOne wholeMost whole
        rw [List.append_assoc] at run
        exact ⟨_, .ok, _, _, exec_data_next_done awake empty goesOn ysOne (by omega) _ _ second, rfl,
          fun _ => ⟨consumed, putNat16 discarded ++ v.report, List.append_assoc _ _ _, rfl⟩, fun bad => absurd rfl bad, run⟩
      | fatal v e offset =>
        rw [second] at whole
        have run := exec_data_broken (tag := tag) (accepts _) slot running wholeOne wholeMost whole
        refine ⟨_, .streamFault, _, _, exec_data_next_broken awake empty goesOn ysOne (by omega) _ _ second, rfl,
          fun ok => by (cases ok), fun _ => rfl, run.trans (congrArg _ ?_)⟩
        have served := (s.storeWork i v).fatalStream_served i v.slot e offset
        rw [State.answer, Link.answer, served]
        rfl

end
end

section
/-! SUPPORT. The mark commands on an entry that their check lets through (R52 to R55), and what a changed mark list does when
its entry is SHOWN. -/

namespace Sys2Proof.Machine

/-- R5, R53, R55: an entry's mark list is replaced, and the Compositor is told the lines if the entry is SHOWN. -/
theorem State.setMarks_told (s : State) (v : Fin 48) (marks : List Mark) (lines : List (Fin 32)) :
    PinPath (s.setDir (s.dir.setMarks v marks)) ((s.setDir (s.dir.setMarks v marks)).tellLines v lines) ∧
    (s.dir.entries[v].state ≠ .shown →
      (s.setDir (s.dir.setMarks v marks)).tellLines v lines = s.setDir (s.dir.setMarks v marks)) ∧
    (s.dir.entries[v].state = .shown →
      (s.setDir (s.dir.setMarks v marks)).tellLines v lines = (s.setDir (s.dir.setMarks v marks)).recompose lines ∧
      ∀ r : Fin 128, lineOfRow r ∈ lines →
        ((s.setDir (s.dir.setMarks v marks)).tellLines v lines).comp.target[r] =
          ((s.setDir (s.dir.setMarks v marks)).tellLines v lines).composeRow r) := by
  have own : (s.setDir (s.dir.setMarks v marks)).dir.entries[v].state = s.dir.entries[v].state := by
    rw [State.setDir_dir, Directory.setMarks, Directory.setEntry_entry, if_pos rfl]
  refine ⟨PinPath.tellLines _ _ _, fun unshown => State.tellLines_unshown _ (own.trans_ne unshown), fun shown => ?_⟩
  rw [State.tellLines_shown _ (own.trans shown)]
  exact ⟨rfl, State.recompose_composed _ _⟩

section
variable {s : State} {k : Key} {c : Condition} {x y : Byte} {v : Fin 48}

/-- R52, R53: ADD MARK on the entry that its check has found. -/
theorem addMarkRule_ok {m : Mark} (owner : m.owner = .supplied) (inLine : m.InLine)
    (found : s.checkEntry k anySuits anySuits c = .ok v) :
    addMarkRule (putKey k ++ c.bytes x y ++ [put8 m.cls.code, put8 m.line.val, put8 m.first, put8 m.length]) s =
      if m ∈ s.dir.entries[v].marks then
        (s, addMarkReply s.dir.entries[v].revision true s.dir.entries[v].marks.length)
      else if s.dir.entries[v].marks.length < 8 then
        ((s.setDir (s.dir.setMarks v (s.dir.entries[v].marks ++ [m]))).tellLines v [m.line],
          addMarkReply (s.dir.entries[v].revision + 1) false (s.dir.entries[v].marks.length + 1))
      else (s, .withRevision .marksFull s.dir.entries[v].revision) := by
  obtain ⟨code, lo, hi, bytes, read⟩ := c.read_bytes x y
  obtain ⟨cls, _, line, first, length⟩ := m
  obtain rfl := owner
  rw [bytes]
  simp only [putKey, put16, List.cons_append, List.nil_append, addMarkRule, readKey_putKey, read,
    readMark_bytes cls line first length inLine.1 inLine.2, found, List.contains_iff_mem, Config.maxMarks]
  congr

/-- R55: a mark is one that DROP MARKS removes: of its classes, of its owners, on its line. -/
theorem Mark.dropped_eq (m : Mark) (classes : BitVec 4) (owners : BitVec 2) (line : Option (Fin 32)) :
    (m.inSets classes owners && onSelectedLine line m) = decide (classes.getLsbD m.cls.code = true ∧
      owners.getLsbD m.owner.code = true ∧ ∀ l ∈ line, m.line = l) := by
  cases line with
  | none => simp [Mark.inSets, onSelectedLine]
  | some l => simp [Mark.inSets, onSelectedLine, Bool.and_assoc, Bool.beq_eq_decide_eq]

/-- R54, R55: DROP MARKS on the entry that its check has found. -/
theorem dropMarksRule_ok {classes : BitVec 4} {owners : BitVec 2} {line : Option (Fin 32)} {gone kept : List Mark}
    (found : s.checkEntry k anySuits anySuits c = .ok v)
    (hgone : gone = s.dir.entries[v].marks.filter (fun m => decide (classes.getLsbD m.cls.code = true ∧
      owners.getLsbD m.owner.code = true ∧ ∀ l ∈ line, m.line = l)))
    (hkept : kept = s.dir.entries[v].marks.filter (fun m => !decide (classes.getLsbD m.cls.code = true ∧
      owners.getLsbD m.owner.code = true ∧ ∀ l ∈ line, m.line = l))) :
    dropMarksRule (putKey k ++ c.bytes x y ++ [classes.setWidth 8, owners.setWidth 8, putIndexOr (line.map Fin.val)]) s =
      if gone = [] then
        (s, ⟨.ok, put8 0 :: put16 s.dir.entries[v].revision ++ [put8 s.dir.entries[v].marks.length]⟩)
      else ((s.setDir (s.dir.setMarks v kept)).tellLines v (gone.map Mark.line),
        ⟨.ok, put8 gone.length :: put16 (s.dir.entries[v].revision + 1) ++ [put8 kept.length]⟩) := by
  obtain ⟨code, lo, hi, bytes, read⟩ := c.read_bytes x y
  subst hgone hkept
  rw [bytes]
  simp only [putKey, put16, List.cons_append, List.nil_append, dropMarksRule, readKey_putKey, read,
    readClassSet_setWidth, readOwnerSet_setWidth, readLineSelector_putIndexOr, found, Mark.dropped_eq]

end

end Sys2Proof.Machine

section
open Sys2Proof Sys2Proof.Machine

/-- Settles O31: the rule's three cases exclude each other, and its answer is that of the case. -/
theorem addMarkAppends : Obligations.AddMarkAppends := by
  rintro s _ tag x y k c m v rfl accepts owner inLine hv held holds
  obtain ⟨-, -, allowed, -⟩ := (EntryCommand.addMark k c x y m.cls m.line m.first m.length inLine.1 inLine.2).checked
  have rule := addMarkRule_ok (x := x) (y := y) owner inLine (State.checkEntry_passes hv rfl held rfl holds)
  refine ⟨fun there => ?_, fun new room => ?_, fun new full => ?_⟩
  · rw [if_pos there] at rule
    exact State.take_frameOf accepts allowed rule
  · obtain ⟨path, unshown, shown⟩ := s.setMarks_told v (s.dir.entries[v].marks ++ [m]) [m.line]
    rw [if_neg new, if_pos room] at rule
    exact ⟨_, _, rfl, path, unshown,
      fun h => ⟨(shown h).1, fun r hr => (shown h).2 r (hr ▸ List.mem_singleton_self _)⟩,
      State.take_frameOf accepts allowed rule⟩
  · rw [if_neg new, if_neg (by omega)] at rule
    exact State.take_frameOf accepts allowed rule

/-- Settles O32: the rule's test is that of the classes, the owners and the line. -/
theorem dropMarksRemovesTheMatching : Obligations.DropMarksRemovesTheMatching := by
  rintro s _ tag x y k c classes owners line v gone kept rfl accepts hv held holds hgone hkept
  obtain ⟨-, -, allowed, -⟩ := (EntryCommand.dropMarks k c x y classes owners line).checked
  have rule := dropMarksRule_ok (x := x) (y := y) (State.checkEntry_passes hv rfl held rfl holds) hgone hkept
  refine ⟨fun none => ?_, fun some => ?_⟩
  · rw [if_pos none] at rule
    exact State.take_frameOf accepts allowed rule
  · obtain ⟨path, unshown, shown⟩ := s.setMarks_told v kept (gone.map Mark.line)
    rw [if_neg some] at rule
    exact ⟨_, _, rfl, path, unshown,
      fun h => ⟨(shown h).1, fun m hm r hr => (shown h).2 r (hr ▸ List.mem_map_of_mem hm)⟩,
      State.take_frameOf accepts allowed rule⟩

end
end

section
/-! SUPPORT. Which bit of a composed row is which dot (R4, R98), and the decimal digits of a page number (R103). -/

namespace Sys2Proof.Machine

/-! ### Rows packed from cells and from bytes -/

theorem packPairs_testBit (l : List (Bool × Bool)) (n : Nat) :
    (packPairs l).testBit n =
      if n % 2 = 0 then (l.getD (n / 2) (false, false)).1 else (l.getD (n / 2) (false, false)).2 := by
  induction l generalizing n with
  | nil => simp [packPairs]
  | cons p rest ih =>
    obtain ⟨left, right⟩ := p
    have low : left.toNat + 2 * right.toNat < 2 ^ 2 := by cases left <;> cases right <;> decide
    have split : packPairs ((left, right) :: rest) = 2 ^ 2 * packPairs rest + (left.toNat + 2 * right.toNat) := by
      simp only [packPairs]; omega
    rw [split, Nat.testBit_two_pow_mul_add _ low]
    match n with
    | 0 => cases left <;> cases right <;> rfl
    | 1 => cases left <;> cases right <;> rfl
    | n + 2 =>
      have half : (n + 2) / 2 = n / 2 + 1 := by omega
      rw [if_neg (by omega), Nat.add_sub_cancel, ih, half, List.getD_cons_succ, Nat.add_mod_right]

theorem packBytes_testBit (l : List Byte) (n : Nat) :
    (packBytes l).testBit n = (l.getD (n / 8) 0).getLsbD (n % 8) := by
  induction l generalizing n with
  | nil => simp [packBytes]
  | cons b rest ih =>
    rw [packBytes, Nat.add_comm, Nat.testBit_two_pow_mul_add (i := 8) _ b.isLt]
    by_cases low : n < 8
    · rw [if_pos low, Nat.div_eq_of_lt low, Nat.mod_eq_of_lt low]; rfl
    · have next : n / 8 = (n - 8) / 8 + 1 := by omega
      have place : n % 8 = (n - 8) % 8 := by omega
      rw [if_neg low, ih, next, place, List.getD_cons_succ]

/-- R98: the place in a cell byte of the dot at a pin. -/
def dotAt (r : Fin 128) (c : Fin 80) : Nat := (if c.val % 2 = 0 then [0, 1, 2, 6] else [3, 4, 5, 7]).getD (r.val % 4) 0

theorem dotAt_eq (r : Fin 128) (c : Fin 80) :
    dotAt r c = if c.val % 2 = 0 then leftDot (rowInLine r) else rightDot (rowInLine r) := by
  have each : ∀ k : Fin 4, leftDot k = [0, 1, 2, 6].getD k.val 0 ∧ rightDot k = [3, 4, 5, 7].getD k.val 0 := by decide
  obtain ⟨left, right⟩ := each (rowInLine r)
  rw [left, right, dotAt, apply_ite (List.getD · (r.val % 4) 0)]
  rfl

theorem dotAt_lt (r : Fin 128) (c : Fin 80) : dotAt r c < 8 := by
  have each : ∀ k : Fin 4, leftDot k < 8 ∧ rightDot k < 8 := by decide
  obtain ⟨left, right⟩ := each (rowInLine r)
  rw [dotAt_eq]
  split
  · exact left
  · exact right

/-- R98: each pin of a row of cells is a dot of its cell. -/
theorem cellRow_getLsbD (r : Fin 128) (c : Fin 80) (cells : List Byte) :
    (cellRow (rowInLine r) cells).getLsbD c.val = (cells.getD (c.val / 2) 0).getLsbD (dotAt r c) := by
  have dots := List.getD_map (l := cells) (n := c.val / 2) (d := 0)
    (f := fun b : Byte => (b.getLsbD (leftDot (rowInLine r)), b.getLsbD (rightDot (rowInLine r))))
  simp only [BitVec.ofNat_eq_ofNat, BitVec.getLsbD_zero] at dots
  rw [cellRow, BitVec.getLsbD_ofNat, decide_eq_true c.isLt, Bool.true_and, packPairs_testBit, dots, dotAt_eq]
  split <;> rfl

/-! ### The digits of a page number -/

/-- The number that a list of digits spells. -/
def decimal (digits : List (Fin 10)) : Nat := digits.foldl (fun n d => 10 * n + d.val) 0

theorem decimal_append (ds : List (Fin 10)) (d : Fin 10) : decimal (ds ++ [d]) = 10 * decimal ds + d.val := by
  simp [decimal]

/-- A first digit other than 0 makes the number at least 1. -/
theorem decimal_pos {ds : List (Fin 10)} (h : ∃ d ∈ ds.head?, d ≠ 0) : 1 ≤ decimal ds := by
  induction ds using List.reverseRecOn with
  | nil => simp at h
  | append_singleton ds d ih =>
    rw [decimal_append]
    cases ds with
    | nil =>
      obtain ⟨e, he, ne⟩ := h
      obtain rfl : d = e := Option.some.inj he
      have := Fin.val_ne_of_ne ne
      omega
    | cons first ds =>
      have := ih h
      omega

/-- R103: a page number of more than one digit is written as the number of its tens and then its last digit. -/
theorem pageDigits_tens {n : Nat} (tens : 10 ≤ n) (most : n < 100000) : pageDigits n = pageDigits (n / 10) ++ [n % 10] := by
  have places : n / 10 / 10000 = 0 ∧ n / 10 / 1000 = n / 10000 ∧ n / 10 / 100 = n / 1000 ∧ n / 10 / 10 = n / 100 := by omega
  obtain ⟨p4, p3, p2, p1⟩ := places
  have conds : (1000 ≤ n / 10 ↔ 10000 ≤ n) ∧ (100 ≤ n / 10 ↔ 1000 ≤ n) ∧ (10 ≤ n / 10 ↔ 100 ≤ n) := by omega
  obtain ⟨c4, c3, c2⟩ := conds
  simp only [pageDigits, p3, p2, p1, c4, c3, c2, if_pos tens, if_neg (show ¬ 10000 ≤ n / 10 by omega), List.nil_append]

/-- R103: the digits of a page number, without leading zeros, are the only digits that spell it so. -/
theorem pageDigits_decimal {ds : List (Fin 10)} (lead : ds = [0] ∨ ∃ d ∈ ds.head?, d ≠ 0) (most : decimal ds < 100000) :
    pageDigits (decimal ds) = ds.map Fin.val := by
  induction ds using List.reverseRecOn with
  | nil => simp at lead
  | append_singleton ds d ih =>
    cases ds with
    | nil =>
      have one : ∀ d : Fin 10, pageDigits (decimal [d]) = [d.val] := by decide
      exact one d
    | cons first ds =>
      have lead' : ∃ d ∈ (first :: ds).head?, d ≠ 0 := lead.resolve_left (by simp)
      have pos := decimal_pos lead'
      rw [decimal_append] at most ⊢
      have tens : (10 * decimal (first :: ds) + d.val) / 10 = decimal (first :: ds) := by omega
      have last : (10 * decimal (first :: ds) + d.val) % 10 = d.val := by omega
      rw [pageDigits_tens (by omega) most, tens, last, ih (.inr lead') (by omega), List.map_append]
      rfl

theorem pageDigits_length (n : Nat) : (pageDigits n).length ≤ 5 := by
  simp only [pageDigits, List.length_append, apply_ite List.length, List.length_cons, List.length_nil]
  split_ifs <;> decide

/-! ### The cells of the status line (R102 to R104) -/

theorem getD_append_replicate {α : Type} (l : List α) (m n : Nat) (d : α) : (l ++ List.replicate m d).getD n d = l.getD n d := by
  by_cases h : n < l.length
  · exact List.getD_append _ _ _ _ h
  · rw [List.getD_append_right _ _ _ _ (by omega), List.getD_eq_default l _ (by omega), List.getD_eq_getElem?_getD,
      List.getElem?_getD_replicate_default_eq]

theorem pageField_none (g : Glyphs) (n : Nat) : (pageField g none).getD n 0 = 0 :=
  getD_append_replicate [] 6 n 0

theorem pageField_digit (g : Glyphs) (p : BitVec 16) (n : Nat) :
    (pageField g (some p)).getD (n + 1) 0 = ((pageDigits p.toNat)[n]?.map g.digit).getD 0 := by
  rw [pageField, List.cons_append, List.getD_cons_succ, getD_append_replicate, List.getD_eq_getElem?_getD, List.getElem?_map]

theorem Glyphs.digit_val (g : Glyphs) (d : Fin 10) : g.digit d.val = g.digits[d] := by simp [Glyphs.digit]

/-- R102: the 40 cells of the status line, place by place. -/
theorem State.statusCells_getD (s : State) (n : Nat) : s.statusCells.getD n 0 =
    if h : n < 30 then s.comp.statusText[n] else if n = 30 then s.indicator else if n = 31 then 0
    else (pageField s.comp.glyphs s.dir.shownPage).getD (n - 32) 0 := by
  have pad := getD_append_replicate (s.comp.statusText.toList ++ [s.indicator, 0] ++ pageField s.comp.glyphs s.dir.shownPage)
    2 n 0
  rw [State.statusCells]
  refine pad.trans ?_
  split
  · rename_i h
    rw [List.append_assoc, List.getD_append _ _ _ _ (by simpa using h)]
    simp [List.getD_eq_getElem?_getD, h]
  rw [List.append_assoc, List.getD_append_right _ _ _ _ (by simp; omega), Vector.length_toList]
  split
  · rename_i h; subst h; rfl
  split
  · rename_i h; subst h; rfl
  · obtain ⟨m, rfl⟩ : ∃ m, n = m + 32 := ⟨n - 32, by omega⟩
    have : m + 32 - 30 = m + 1 + 1 := by omega
    rw [this, Nat.add_sub_cancel]
    rfl

end Sys2Proof.Machine
end

section
/-! SUPPORT. Where a line comes from, and the dots of a TEXT entry's cells with the marks that cover them (R59, R60, R99 to
R101). -/

namespace Sys2Proof.Machine

/-! ### The source of a line (R99) -/

section
variable {s : State} {line : Fin 32} {i : Fin 48}

theorem State.lineSource_status (bottom : line = 31) (on : s.comp.statusOn = true) : s.lineSource line = .status :=
  if_pos ⟨congrArg Fin.val bottom, on⟩

theorem State.lineSource_page (off : ¬ (line = 31 ∧ s.comp.statusOn = true)) : s.lineSource line =
    match s.dir.shownEntry with
    | none => .blank
    | some i => match s.dir.entries[i].kind with
      | .text => .text i
      | .raw => .raw i :=
  if_neg fun h => off ⟨Fin.ext h.1, h.2⟩

theorem State.lineSource_blank (off : ¬ (line = 31 ∧ s.comp.statusOn = true)) (none : s.dir.shownEntry = none) :
    s.lineSource line = .blank := by
  rw [State.lineSource_page off, none]

theorem State.lineSource_text (off : ¬ (line = 31 ∧ s.comp.statusOn = true)) (shown : s.dir.shownEntry = some i)
    (text : s.dir.entries[i].kind = .text) : s.lineSource line = .text i := by
  simp only [State.lineSource_page off, shown, text]

theorem State.lineSource_raw (off : ¬ (line = 31 ∧ s.comp.statusOn = true)) (shown : s.dir.shownEntry = some i)
    (raw : s.dir.entries[i].kind = .raw) : s.lineSource line = .raw i := by
  simp only [State.lineSource_page off, shown, raw]

end

/-! ### RAW entries (R4, R101) -/

theorem getD_map_range {α : Type} (f : Nat → α) (d : α) {n m : Nat} (h : n < m) : ((List.range m).map f).getD n d = f n := by
  simp [List.getD_eq_getElem?_getD, h]

theorem State.rawRow_getLsbD (s : State) (i : Fin 48) (r : Fin 128) (c : Fin 80) :
    (s.rawRow i r).getLsbD c.val = (s.dir.frameByte i (10 * r.val + c.val / 8)).getLsbD (c.val % 8) := by
  rw [State.rawRow, BitVec.getLsbD_ofNat, decide_eq_true c.isLt, Bool.true_and, packBytes_testBit,
    getD_map_range _ _ (by omega)]

/-! ### TEXT entries and marks (R59, R60, R62, R100) -/

/-- R49: the cells that a mark covers. -/
theorem Mark.covers_iff (m : Mark) (line : Fin 32) (c : Nat) :
    m.covers line c = true ↔ m.line = line ∧ m.first ≤ c ∧ c < m.first + m.length := by
  simp [Mark.covers, and_assoc]

/-- R167: a pin lies in the zone of its cell. -/
theorem zoneOfCell_pin (r : Fin 128) (c : Fin 80) : zoneOfCell (lineOfRow r) (c.val / 2) = zoneOfPin r c := by
  have band : bandOfLine (lineOfRow r) = bandOfRow r := Fin.ext (by simp only [bandOfLine, lineOfRow, bandOfRow]; omega)
  have half : halfOfCell (c.val / 2) = halfOfCol c := by
    unfold halfOfCell
    split
    · exact Fin.ext (by simp only [halfOfCol, Fin.val_zero]; omega)
    · exact Fin.ext (by simp only [halfOfCol, Fin.val_one]; omega)
  rw [zoneOfCell, zoneOfPin, band, half]

theorem State.zoneSteady_iff (s : State) (z : Fin 16) : s.zoneSteady z = true ↔ s.touch.zones[z].state ≠ .clear := by
  simp [State.zoneSteady]

/-- R59, R60: the dots that a mark gives a cell it covers. -/
theorem markDots_getLsbD (blinkOn steady : Bool) (cls : MarkClass) {bit : Nat} (h : bit < 8) :
    (markDots blinkOn steady cls).getLsbD bit = true ↔
      (bit = 6 ∧ (cls = .highlight ∨ cls = .bookmark)) ∨ (bit = 7 ∧ (cls = .highlight ∨ cls = .find)) ∨
        (6 ≤ bit ∧ cls = .cursor ∧ (blinkOn = true ∨ steady = true)) := by
  have each : ∀ bit : Fin 8, (markDots blinkOn steady cls).getLsbD bit.val = true ↔
      (bit.val = 6 ∧ (cls = .highlight ∨ cls = .bookmark)) ∨ (bit.val = 7 ∧ (cls = .highlight ∨ cls = .find)) ∨
        (6 ≤ bit.val ∧ cls = .cursor ∧ (blinkOn = true ∨ steady = true)) := by
    cases cls <;> revert blinkOn steady <;> decide
  exact each ⟨bit, h⟩

/-- The bits of a byte to which others are added. -/
theorem foldl_or_getLsbD {α : Type} (f : α → Byte) (l : List α) (b : Byte) (n : Nat) :
    (l.foldl (fun b m => b ||| f m) b).getLsbD n = true ↔ b.getLsbD n = true ∨ ∃ m ∈ l, (f m).getLsbD n = true := by
  induction l generalizing b with
  | nil => simp
  | cons m l ih =>
    rw [List.foldl_cons, ih, BitVec.getLsbD_or, Bool.or_eq_true]
    simp [or_assoc]

/-- R59, R60, R100: a pin of a line of a TEXT entry is up by its frame, or by a mark that covers its cell. -/
theorem State.textRow_getLsbD (s : State) (i : Fin 48) (r : Fin 128) (c : Fin 80) :
    (cellRow (rowInLine r) (s.textCells i (lineOfRow r))).getLsbD c.val = true ↔
      (s.dir.frameByte i (40 * (r.val / 4) + c.val / 2)).getLsbD (dotAt r c) = true ∨
        ∃ m ∈ s.dir.entries[i].marks, m.line = lineOfRow r ∧ m.first ≤ c.val / 2 ∧ c.val / 2 < m.first + m.length ∧
          ((dotAt r c = 6 ∧ (m.cls = .highlight ∨ m.cls = .bookmark)) ∨
            (dotAt r c = 7 ∧ (m.cls = .highlight ∨ m.cls = .find)) ∨
            (6 ≤ dotAt r c ∧ m.cls = .cursor ∧
              (s.comp.blinkOn = true ∨ s.touch.zones[zoneOfPin r c].state ≠ .clear))) := by
  have inLine : c.val / 2 < Config.cellsPerLine := by simp only [Config.cellsPerLine]; omega
  rw [cellRow_getLsbD, State.textCells, getD_map_range _ _ inLine, State.textCell, foldl_or_getLsbD, zoneOfCell_pin]
  simp only [List.mem_filter, Mark.covers_iff, markDots_getLsbD _ _ _ (dotAt_lt r c), State.zoneSteady_iff, and_assoc]
  rfl

/-- R62, R100: the mark pins of a line of a TEXT entry are those of its covered cells. -/
theorem State.composeMarkPins_text {s : State} {i : Fin 48} {line : Fin 32} (source : s.lineSource line = .text i)
    (c : Fin 80) : (s.composeMarkPins line).getLsbD c.val = true ↔
      ∃ m ∈ s.dir.entries[i].marks, m.line = line ∧ m.first ≤ c.val / 2 ∧ c.val / 2 < m.first + m.length := by
  have inLine : c.val / 2 < Config.cellsPerLine := by simp only [Config.cellsPerLine]; omega
  simp only [State.composeMarkPins, source, BitVec.getLsbD_ofNat, decide_eq_true c.isLt, Bool.true_and, packPairs_testBit,
    getD_map_range _ _ inLine, ite_self, List.any_eq_true, Mark.covers_iff]

/-! ### The status line (R102 to R104) -/

section
variable {s : State} {r : Fin 128} (source : s.lineSource (lineOfRow r) = .status) (c : Fin 80)
include source

/-- R98, R102: a pin of the status line is a dot of its cell. -/
theorem State.composeRow_status :
    (s.composeRow r).getLsbD c.val = (s.statusCells.getD (c.val / 2) 0).getLsbD (dotAt r c) := by
  rw [State.composeRow, source]
  exact cellRow_getLsbD r c _

theorem State.composeRow_statusText (h : c.val / 2 < 30) :
    (s.composeRow r).getLsbD c.val = s.comp.statusText[c.val / 2].getLsbD (dotAt r c) := by
  rw [State.composeRow_status source, State.statusCells_getD, dif_pos h]

theorem State.composeRow_indicator (h : c.val / 2 = 30) : (s.composeRow r).getLsbD c.val =
    (if s.nav.cond = .settled then s.comp.glyphs.settled else s.comp.glyphs.waiting).getLsbD (dotAt r c) := by
  rw [State.composeRow_status source, State.statusCells_getD, dif_neg (by omega), if_pos h, State.indicator]

theorem State.composeRow_gap (h : c.val / 2 = 31) : (s.composeRow r).getLsbD c.val = false := by
  rw [State.composeRow_status source, State.statusCells_getD, dif_neg (by omega), if_neg (by omega), if_pos h]
  exact BitVec.getLsbD_zero

theorem State.composeRow_field (h : 32 ≤ c.val / 2) : (s.composeRow r).getLsbD c.val =
    ((pageField s.comp.glyphs s.dir.shownPage).getD (c.val / 2 - 32) 0).getLsbD (dotAt r c) := by
  rw [State.composeRow_status source, State.statusCells_getD, dif_neg (by omega), if_neg (by omega), if_neg (by omega)]

theorem State.composeRow_noPage (h : 32 ≤ c.val / 2) (none : s.dir.shownEntry = none) :
    (s.composeRow r).getLsbD c.val = false := by
  rw [State.composeRow_field source c h, Directory.shownPage, none]
  exact (congrArg (BitVec.getLsbD · _) (pageField_none _ _)).trans BitVec.getLsbD_zero

theorem State.composeRow_digit {p : BitVec 16} (page : s.dir.shownPage = some p) {j : Nat} (h : c.val / 2 = 33 + j) :
    (s.composeRow r).getLsbD c.val =
      (((pageDigits p.toNat)[j]?.map s.comp.glyphs.digit).getD 0).getLsbD (dotAt r c) := by
  have place : c.val / 2 - 32 = j + 1 := by omega
  rw [State.composeRow_field source c (by omega), page, place, pageField_digit]

/-- R102: the last two cells stay empty, since a page number has five digits at most. -/
theorem State.composeRow_end (h : 38 ≤ c.val / 2) : (s.composeRow r).getLsbD c.val = false := by
  cases page : s.dir.shownPage with
  | none =>
    rw [State.composeRow_field source c (by omega), page, pageField_none]
    exact BitVec.getLsbD_zero
  | some p =>
    have short := pageDigits_length p.toNat
    rw [State.composeRow_digit source c page (j := c.val / 2 - 33) (by omega), List.getElem?_eq_none (by omega)]
    exact BitVec.getLsbD_zero

end

end Sys2Proof.Machine

section
open Sys2Proof Sys2Proof.Machine

/-- Settles O40: the line's source is the status line, nothing, or the SHOWN entry, and each composes its own dots. -/
theorem linesAreComposed : Obligations.LinesAreComposed := by
  intro s r c bit hbit
  obtain rfl : bit = dotAt r c := hbit
  refine ⟨fun bottom on => ?_, fun off => ⟨fun none => ?_, fun i shown => ⟨fun raw => ?_, fun text => ?_⟩⟩⟩
  · have source := State.lineSource_status bottom on
    refine ⟨by rw [State.composeMarkPins, source], State.composeRow_statusText source c, State.composeRow_indicator source c,
      fun h => h.elim (State.composeRow_gap source c) (State.composeRow_end source c),
      State.composeRow_noPage source c, fun i k shown key => ?_⟩
    have page : s.dir.shownPage = some k.page := by rw [Directory.shownPage, shown]; simp only [key]; rfl
    refine ⟨fun h => ?_, fun digits spells lead j _ h => ?_⟩
    · rw [State.composeRow_field source c (by omega), page, h]
      rfl
    · have number : decimal digits = k.page.toNat := spells
      have most := k.page.isLt
      have digit : s.comp.glyphs.digit ∘ Fin.val = fun d : Fin 10 => s.comp.glyphs.digits[d] :=
        funext s.comp.glyphs.digit_val
      rw [State.composeRow_digit source c page h, ← number, pageDigits_decimal lead (by omega), List.getElem?_map,
        Option.map_map, digit]
  · have source := State.lineSource_blank off none
    rw [State.composeRow, State.composeMarkPins, source]
    exact ⟨BitVec.getLsbD_zero, rfl⟩
  · have source := State.lineSource_raw off shown raw
    rw [State.composeRow, State.composeMarkPins, source]
    exact ⟨s.rawRow_getLsbD i r c, rfl⟩
  · have source := State.lineSource_text off shown text
    refine ⟨?_, State.composeMarkPins_text source c⟩
    rw [State.composeRow, source]
    exact s.textRow_getLsbD i r c

end
end

section
/-! SUPPORT. The presses of one sample (R56, R57, R63, R64, R69, R70): which there are, in which order, and what each key's
action comes to. -/

namespace Sys2Proof.Machine

/-! ### The keys of a sample (R63, R64) -/

theorem Debouncer.presses_iff (d : Debouncer) (down : Bool) : d.presses down = true ↔ d.Registers down := by
  simp [Debouncer.presses, and_assoc]

theorem sampleKeys_eq {keys next : Vector Debouncer 5} {down : Vector Bool 5} (h : Sampled keys down next) :
    sampleKeys keys down = next :=
  Vector.ext fun j hj => (Vector.getElem_ofFn _).trans (h ⟨j, hj⟩).symm

theorem State.pressKeys_eq_foldl (s : State) (keys : List PatronKey) : s.pressKeys keys = keys.foldl State.pressKey s := by
  induction keys generalizing s with
  | nil => rfl
  | cons k rest ih => exact ih _

/-- R64: the patron keys by their number. -/
def patronKey (j : Fin 5) : PatronKey := patronKeys[j.val]

/-- R64: the press of key `j` is acted on if the sample registers it. -/
def State.mayPress (keys : Vector Debouncer 5) (down : Vector Bool 5) (s : State) (j : Fin 5) : State :=
  if keys[j].presses down[j] then s.pressKey (patronKey j) else s

/-- R64: the state after the presses of the keys below number `n`. -/
def State.pressedTo (s : State) (keys : Vector Debouncer 5) (down : Vector Bool 5) (n : Nat) : State :=
  ((List.finRange 5).take n).foldl (State.mayPress keys down) s

section
variable (s : State) (keys : Vector Debouncer 5) (down : Vector Bool 5)

theorem State.pressedTo_succ (j : Fin 5) :
    s.pressedTo keys down (j.val + 1) = (s.pressedTo keys down j.val).mayPress keys down j := by
  rw [State.pressedTo, List.take_succ_eq_append_getElem (by simp), List.foldl_append]
  simp [State.pressedTo]

/-- R64: the registered presses are acted on one after another in the order of the keys. -/
theorem State.pressKeys_registered : s.pressKeys (registeredPresses keys down) = s.pressedTo keys down 5 := by
  have named : (fun i : Fin 5 => patronKeys[i.val]?) = fun i => some (patronKey i) :=
    funext fun i => List.getElem?_eq_getElem _
  rw [State.pressKeys_eq_foldl, registeredPresses, named, List.filterMap_eq_map', List.foldl_map, List.foldl_filter]
  rfl

end

/-! ### PREV and NEXT (R69) -/

/-- R69: a page is wanted, and its key is evaluated. -/
theorem State.wantPage_evaluates (s : State) (page : BitVec 16) (cause : ShownCause) :
    ({ s with nav := { s.nav with wanted := some page } } : State).Evaluates cause (s.wantPage page cause) :=
  State.evaluate_evaluates _ _

section
variable {s : State} {next : BitVec 16 → BitVec 16} {p : BitVec 16}

theorem State.pageStep_away (h : s.nav.lock = true ∨ s.nav.wanted = none) : s.pageStep next = s := by
  unfold State.pageStep
  split
  · rfl
  · rename_i wanted
    exact if_pos (h.resolve_right (by simp [wanted]))

theorem State.pageStep_clamped (wanted : s.nav.wanted = some p) (stays : next p = p) : s.pageStep next = s := by
  simp [State.pageStep, wanted, stays]

theorem State.pageStep_turns (free : s.nav.lock = false) (wanted : s.nav.wanted = some p) (turns : next p ≠ p) :
    s.pageStep next = s.wantPage (next p) .nav := by
  simp [State.pageStep, wanted, free, turns]

end

theorem prevPage_eq {p q : BitVec 16} (h : q.toNat + 1 = p.toNat) : prevPage p = q ∧ prevPage p ≠ p := by
  have ne : p ≠ 0 := by rintro rfl; simp at h
  rw [prevPage, if_neg ne]
  constructor <;> bv_omega

theorem nextPage_eq {p q : BitVec 16} (h : q.toNat = p.toNat + 1) : nextPage p = q ∧ nextPage p ≠ p := by
  have small := q.isLt
  have ne : p ≠ 0xFFFF := by rintro rfl; simp at h; omega
  rw [nextPage, if_neg ne]
  constructor <;> bv_omega

/-! ### SEEK (R70) -/

theorem smallestPage_none {pages : List (BitVec 16)} : smallestPage pages = none ↔ pages = [] := by
  cases pages with
  | nil => simp [smallestPage]
  | cons p rest =>
    simp only [smallestPage, reduceCtorEq, iff_false]
    split
    · simp
    · split <;> simp

theorem smallestPage_some {pages : List (BitVec 16)} {q : BitVec 16} (h : smallestPage pages = some q) :
    q ∈ pages ∧ ∀ x ∈ pages, q.toNat ≤ x.toNat := by
  induction pages generalizing q with
  | nil => cases h
  | cons p rest ih =>
    simp only [smallestPage] at h
    split at h
    · rename_i last
      obtain rfl := smallestPage_none.mp last
      obtain rfl := Option.some.inj h
      simp
    · rename_i least found
      obtain ⟨mem, low⟩ := ih found
      split at h
      · rename_i le
        obtain rfl := Option.some.inj h
        exact ⟨List.mem_cons_self, List.forall_mem_cons.mpr ⟨le_rfl, fun x hx => le.trans (low x hx)⟩⟩
      · rename_i gt
        obtain rfl := Option.some.inj h
        exact ⟨List.mem_cons_of_mem _ mem, List.forall_mem_cons.mpr ⟨by omega, low⟩⟩

section
variable {pages : List (BitVec 16)} {p q : BitVec 16}

/-- R70: without a page above the wanted one, the smallest is picked. -/
theorem seekPick_wraps (none_above : ∀ x ∈ pages, x.toNat ≤ p.toNat) : seekPick pages p = smallestPage pages := by
  have none : pages.filter (fun x => p.toNat < x.toNat) = [] :=
    List.filter_eq_nil_iff.mpr fun x hx => by simpa using none_above x hx
  rw [seekPick, none]
  rfl

/-- R70: with one, the smallest of those above it. -/
theorem seekPick_above (above : ∃ x ∈ pages, p.toNat < x.toNat) :
    seekPick pages p = smallestPage (pages.filter fun x => p.toNat < x.toNat) := by
  rw [seekPick]
  split
  · rename_i found; exact found.symm
  · rename_i none
    obtain ⟨x, hx, lt⟩ := above
    have := List.filter_eq_nil_iff.mp (smallestPage_none.mp none) x hx
    simp [lt] at this

theorem seekPick_none : seekPick pages p = none ↔ pages = [] := by
  by_cases above : ∃ x ∈ pages, p.toNat < x.toNat
  · rw [seekPick_above above, smallestPage_none, List.filter_eq_nil_iff]
    obtain ⟨x, hx, lt⟩ := above
    exact ⟨fun h => absurd lt (by simpa using h x hx), by rintro rfl; cases hx⟩
  · rw [seekPick_wraps (by simpa using above), smallestPage_none]

theorem seekPick_some (h : seekPick pages p = some q) : q ∈ pages ∧
    ((∃ x ∈ pages, p.toNat < x.toNat) → p.toNat < q.toNat ∧ ∀ x ∈ pages, p.toNat < x.toNat → q.toNat ≤ x.toNat) ∧
    ((∀ x ∈ pages, x.toNat ≤ p.toNat) → ∀ x ∈ pages, q.toNat ≤ x.toNat) := by
  by_cases above : ∃ x ∈ pages, p.toNat < x.toNat
  · rw [seekPick_above above] at h
    obtain ⟨mem, low⟩ := smallestPage_some h
    obtain ⟨mem, lt⟩ := List.mem_filter.mp mem
    obtain ⟨x, hx, hlt⟩ := above
    exact ⟨mem, fun _ => ⟨of_decide_eq_true lt, fun x hx lt => low x (List.mem_filter.mpr ⟨hx, decide_eq_true lt⟩)⟩,
      fun none => absurd hlt (Nat.not_lt.mpr (none x hx))⟩
  · rw [seekPick_wraps (by simpa using above)] at h
    obtain ⟨mem, low⟩ := smallestPage_some h
    exact ⟨mem, fun some => absurd some above, fun _ => low⟩

/-- R70: the page that a seek picks is the only one of its description. -/
theorem seekPick_eq (mem : q ∈ pages)
    (picked : (p.toNat < q.toNat ∧ ∀ x ∈ pages, p.toNat < x.toNat → q.toNat ≤ x.toNat) ∨
      ((∀ x ∈ pages, x.toNat ≤ p.toNat) ∧ ∀ x ∈ pages, q.toNat ≤ x.toNat)) : seekPick pages p = some q := by
  cases found : seekPick pages p with
  | none => rw [seekPick_none.mp found] at mem; cases mem
  | some x =>
    obtain ⟨hx, above, wraps⟩ := seekPick_some found
    refine congrArg some (BitVec.eq_of_toNat_eq ?_)
    rcases picked with ⟨lt, low⟩ | ⟨none, low⟩
    · obtain ⟨lt', low'⟩ := above ⟨q, mem, lt⟩
      exact le_antisymm (low' q mem lt) (low x hx lt')
    · exact le_antisymm (wraps none q mem) (low x hx)

end

/-- R70: the pages of the seek set. -/
theorem Directory.mem_seekPages {d : Directory} {doc : BitVec 4} {q : BitVec 16} : q ∈ d.seekPages doc ↔
    ∃ i : Fin 48, (d.entries[i].state = .ready ∨ d.entries[i].state = .shown) ∧ d.entries[i].key = some ⟨doc, q⟩ ∧
      d.entries[i].held = false ∧ ∃ m ∈ d.entries[i].marks, m.cls = .bookmark := by
  rw [Directory.seekPages, List.mem_filterMap]
  refine exists_congr fun i => ?_
  rw [← Entry.visible_iff]
  cases key : d.entries[i].key with
  | none => simp [key, -Fin.getElem_fin]
  | some k =>
    obtain ⟨doc', page⟩ := k
    simp only [key, List.mem_finRange, true_and, Option.ite_none_right_eq_some, Bool.and_eq_true, Bool.not_eq_true',
      beq_iff_eq, List.any_eq_true, Option.some.injEq, Key.mk.injEq]
    tauto

section
variable {s : State} {p q : BitVec 16}

theorem State.seek_away (h : s.nav.lock = true ∨ s.nav.wanted = none) : s.seek = s := by
  unfold State.seek
  split
  · rfl
  · rename_i wanted
    exact if_pos (h.resolve_right (by simp [wanted]))

theorem State.seek_nothing (wanted : s.nav.wanted = some p) (none : s.dir.seekPages s.nav.document = []) : s.seek = s := by
  simp [State.seek, wanted, seekPick_none.mpr none]

theorem State.seek_picks (free : s.nav.lock = false) (wanted : s.nav.wanted = some p)
    (pick : seekPick (s.dir.seekPages s.nav.document) p = some q) : s.seek = s.wantPage q .nav := by
  simp [State.seek, wanted, free, pick]

end

/-! ### MARK (R56, R57) -/

section
variable {marks out : List Mark} {m : Mark}

theorem toggleMark_none (new : m ∉ marks) (full : 8 ≤ marks.length) : toggleMark marks m = none := by
  simp [toggleMark, new, Config.maxMarks, Nat.not_lt.mpr full]

theorem toggleMark_some (h : (m ∈ marks ∧ out = marks.filter (· ≠ m)) ∨
    (m ∉ marks ∧ marks.length < 8 ∧ out = marks ++ [m])) : toggleMark marks m = some out := by
  rcases h with ⟨there, rfl⟩ | ⟨new, room, rfl⟩
  · simp [toggleMark, there]
  · simp [toggleMark, new, Config.maxMarks, room]

end

section
variable {s : State} {v : Fin 48}

theorem State.markPress_away (h : s.dir.shownEntry = none ∨ s.nav.lock = true ∨ ∃ v, s.dir.shownEntry = some v ∧
    (s.dir.entries[v].held = true ∨ s.dir.entries[v].kind = .raw ∨
      (patronBookmark s.touch.band ∉ s.dir.entries[v].marks ∧ 8 ≤ s.dir.entries[v].marks.length))) : s.markPress = s := by
  unfold State.markPress
  split
  · rfl
  · rename_i i shown
    simp only
    split
    · rfl
    · rename_i goes
      simp only [Bool.or_eq_true, beq_iff_eq, not_or] at goes
      obtain ⟨⟨unheld, notRaw⟩, free⟩ := goes
      rcases h with none | locked | ⟨v, hv, held | raw | ⟨new, full⟩⟩
      · rw [none] at shown; cases shown
      · exact absurd locked free
      all_goals obtain rfl := Option.some.inj (hv.symm.trans shown)
      · exact absurd held unheld
      · exact absurd raw notRaw
      · rw [toggleMark_none new full]

theorem State.markPress_toggles {marks : List Mark} (free : s.nav.lock = false) (shown : s.dir.shownEntry = some v)
    (unheld : s.dir.entries[v].held = false) (text : s.dir.entries[v].kind = .text)
    (toggled : toggleMark s.dir.entries[v].marks (patronBookmark s.touch.band) = some marks) :
    s.markPress = (s.setDir (s.dir.setMarks v marks)).tellLines v [firstLineOfBand s.touch.band] := by
  have goes : ¬ (s.dir.entries[v].held || s.dir.entries[v].kind == .raw || s.nav.lock) = true := by
    rw [unheld, text, free]; decide
  simp only [State.markPress, shown, if_neg goes, toggled]
  rfl

end

/-! ### The presses of the five keys -/

theorem State.prev_presses (s : State) : s.Presses 0 (s.post (.key 1 0 0 0 0)) (s.pressKey .prev) where
  posted := rfl
  turnedAway away := by
    change (s.post _).pageStep prevPage = _
    rcases away with ⟨-, -, away⟩ | call | ⟨-, zero⟩ | ⟨next, -⟩
    · exact State.pageStep_away (by rwa [State.post_nav])
    · cases call
    · exact State.pageStep_clamped (p := 0) (by rwa [State.post_nav]) rfl
    · cases next
  pageStep p q free wanted step := by
    obtain ⟨rfl, turns⟩ := prevPage_eq (p := p) (q := q) (by simpa using step)
    rw [State.pressKey, State.pageStep_turns (p := p) (by rwa [State.post_nav]) (by rwa [State.post_nav]) turns]
    exact State.wantPage_evaluates _ _ _
  seek _ _ key := by cases key
  mark _ key := by cases key

theorem State.next_presses (s : State) : s.Presses 1 (s.post (.key 0 1 0 0 0)) (s.pressKey .next) where
  posted := rfl
  turnedAway away := by
    change (s.post _).pageStep nextPage = _
    rcases away with ⟨-, -, away⟩ | call | ⟨prev, -⟩ | ⟨-, last⟩
    · exact State.pageStep_away (by rwa [State.post_nav])
    · cases call
    · cases prev
    · exact State.pageStep_clamped (p := 0xFFFF) (by rwa [State.post_nav]) rfl
  pageStep p q free wanted step := by
    obtain ⟨rfl, turns⟩ := nextPage_eq (p := p) (q := q) (by simpa using step)
    rw [State.pressKey, State.pageStep_turns (p := p) (by rwa [State.post_nav]) (by rwa [State.post_nav]) turns]
    exact State.wantPage_evaluates _ _ _
  seek _ _ key := by cases key
  mark _ key := by cases key

theorem State.mark_presses (s : State) : s.Presses 2 (s.post (.key 0 0 1 0 0)) (s.pressKey .mark) where
  posted := rfl
  turnedAway away := by simp at away
  pageStep _ _ _ _ step := by simp at step
  seek _ _ key := by cases key
  mark m _ hm := by
    subst hm
    change ((_ → (s.post _).markPress = _) ∧ ∀ v marks u, _)
    refine ⟨fun away => State.markPress_away ?_, fun v marks u free shown unheld text toggled hu => ?_⟩
    · simpa only [State.post_dir, State.post_nav, State.post_touch, patronBookmark] using away
    · subst hu
      generalize hb : s.post (.key 0 0 1 0 0) = b
      have dir : b.dir = s.dir := by rw [← hb, State.post_dir]
      have nav : b.nav = s.nav := by rw [← hb, State.post_nav]
      have touch : b.touch = s.touch := by rw [← hb, State.post_touch]
      rw [← dir] at shown unheld text toggled ⊢
      rw [← nav] at free
      rw [← touch] at toggled ⊢
      obtain ⟨path, -, composed⟩ :=
        b.setMarks_told v marks [firstLineOfBand b.touch.band]
      obtain ⟨whole, target⟩ := composed (Directory.shownEntry_some shown)
      rw [State.pressKey, hb, State.markPress_toggles free shown unheld text (toggleMark_some toggled)]
      exact ⟨path, whole, fun r hr => target r (hr ▸ List.mem_singleton_self _)⟩

theorem State.seek_presses (s : State) : s.Presses 3 (s.post (.key 0 0 0 1 0)) (s.pressKey .seek) where
  posted := rfl
  turnedAway away := by
    change (s.post _).seek = _
    rcases away with ⟨-, -, away⟩ | call | ⟨prev, -⟩ | ⟨next, -⟩
    · exact State.seek_away (by rwa [State.post_nav])
    · cases call
    · cases prev
    · cases next
  pageStep _ _ _ _ step := by simp at step
  seek p seekable _ free wanted hseekable := by
    change ((_ → (s.post _).seek = _) ∧ ∀ q, _)
    have mem : ∀ q, q ∈ s.dir.seekPages s.nav.document ↔ seekable q := fun q =>
      Directory.mem_seekPages.trans (hseekable q).symm
    refine ⟨fun none => State.seek_nothing (p := p) (by rwa [State.post_nav]) ?_, fun q hq picked => ?_⟩
    · rw [State.post_dir, State.post_nav]
      exact List.eq_nil_iff_forall_not_mem.mpr fun q hq => none q ((mem q).mp hq)
    · have pick : seekPick (s.dir.seekPages s.nav.document) p = some q :=
        seekPick_eq ((mem q).mpr hq) (by simpa only [mem] using picked)
      rw [State.pressKey, State.seek_picks (p := p) (q := q) (by rwa [State.post_nav]) (by rwa [State.post_nav])
        (by rwa [State.post_dir, State.post_nav])]
      exact State.wantPage_evaluates _ _ _
  mark _ key := by cases key

theorem State.call_presses (s : State) : s.Presses 4 (s.post (.key 0 0 0 0 1)) (s.pressKey .call) where
  posted := rfl
  turnedAway _ := rfl
  pageStep _ _ _ _ step := by simp at step
  seek _ _ key := by cases key
  mark _ key := by cases key

/-- R64: the press of each key posts its notice and then acts. -/
theorem State.pressKey_presses (s : State) (j : Fin 5) : ∃ base : State, s.Presses j base (s.pressKey (patronKey j)) := by
  match j with
  | 0 => exact ⟨_, s.prev_presses⟩
  | 1 => exact ⟨_, s.next_presses⟩
  | 2 => exact ⟨_, s.mark_presses⟩
  | 3 => exact ⟨_, s.seek_presses⟩
  | 4 => exact ⟨_, s.call_presses⟩

end Sys2Proof.Machine

section
open Sys2Proof Sys2Proof.Machine

/-- Settles O39: the states between the presses are those after the keys below each number. -/
theorem registeredPressesAct : Obligations.RegisteredPressesAct := by
  refine ⟨fun s prev next mark seek call keys awake sampled => ?_, fun pages p =>
    ⟨seekPick_none, fun q => seekPick_some⟩⟩
  refine ⟨fun n => ({ s with nav := { s.nav with keys := keys } } : State).pressedTo s.nav.keys
    #v[prev, next, mark, seek, call] n.val, rfl, fun j => ?_, ?_⟩
  · have acts := State.pressedTo_succ { s with nav := { s.nav with keys := keys } } s.nav.keys
      #v[prev, next, mark, seek, call] j
    refine ⟨fun registers => ?_, fun quiet => ?_⟩
    · rw [State.mayPress, if_pos ((Debouncer.presses_iff _ _).mpr registers)] at acts
      simp only [Fin.val_succ, acts]
      exact State.pressKey_presses _ j
    · rw [State.mayPress, if_neg (mt (Debouncer.presses_iff _ _).mp quiet)] at acts
      exact acts
  · change (if s.resetPin then _ else Host.Outcome.next (s.sample _)) = _
    rw [if_neg (by simp [awake]), State.sample, State.pressKeys_registered, sampleKeys_eq sampled]
    rfl

end
end

section
/-! SUPPORT. The plan of a pin row: the columns it moves, the zones whose hold timers it starts, and what asking for a stroke
and forming a waiting plan again give (R116, R134 to R142, R172). -/

namespace Sys2Proof.Machine

/-! ### Passes over ascending columns -/

section
variable {n : Nat} {l : List (Fin n)} (ascending : l.Pairwise (· < ·))
include ascending

/-- The first `m` of an ascending list are those with fewer than `m` below them. -/
theorem mem_take_ascending (m : Nat) (c : Fin n) :
    c ∈ l.take m ↔ c ∈ l ∧ l.countP (fun j => decide (j < c)) < m := by
  induction l generalizing m with
  | nil => simp
  | cons a l ih =>
    obtain ⟨first, rest⟩ := List.pairwise_cons.mp ascending
    cases m with
    | zero => simp
    | succ m =>
      rw [List.take_succ_cons, List.mem_cons, List.mem_cons, ih rest, List.countP_cons]
      by_cases eq : c = a
      · subst eq
        have none : l.countP (fun j => decide (j < c)) = 0 :=
          List.countP_eq_zero.mpr fun j hj => by simpa using (first j hj).le
        simp [none]
      · have counted : c ∈ l → decide (a < c) = true := fun hc => decide_eq_true (first c hc)
        simp only [eq, false_or]
        refine and_congr_right fun hc => ?_
        rw [if_pos (counted hc)]
        omega

/-- The others are those with at least `m` below them. -/
theorem mem_drop_ascending (m : Nat) (c : Fin n) :
    c ∈ l.drop m ↔ c ∈ l ∧ m ≤ l.countP (fun j => decide (j < c)) := by
  have apart := List.disjoint_take_drop (ascending.imp fun h => Fin.ne_of_lt h) (le_refl m)
  have taken := mem_take_ascending ascending m c
  constructor
  · intro hc
    have mem := List.mem_of_mem_drop hc
    exact ⟨mem, Nat.not_lt.mp fun lt => apart (taken.mpr ⟨mem, lt⟩) hc⟩
  · rintro ⟨hc, le⟩
    rw [← List.take_append_drop m l, List.mem_append] at hc
    exact hc.resolve_left fun early => absurd (taken.mp early).2 (Nat.not_lt.mpr le)

/-- Counting along an ascending list is counting the indexes that it holds. -/
theorem countP_ascending (p : Fin n → Bool) : l.countP p = (List.finRange n).countP fun j => p j && decide (j ∈ l) := by
  have same : l.Perm ((List.finRange n).filter fun j => decide (j ∈ l)) :=
    (List.perm_ext_iff_of_nodup (ascending.imp fun h => Fin.ne_of_lt h) ((List.nodup_finRange n).filter _)).mpr
      fun j => by simp
  rw [same.countP_eq, List.countP_filter]

end

/-- R133: what is below a column in a list of its bank is what bankBelow counts. -/
theorem countP_bank {l : List (Fin 80)} (ascending : l.Pairwise (· < ·)) {q : Fin 80 → Bool} {k : Nat}
    (mem : ∀ j, j ∈ l ↔ j.val / 20 = k ∧ q j = true) {c : Fin 80} (bank : c.val / 20 = k) :
    l.countP (fun j => decide (j < c)) = bankBelow q c := by
  rw [countP_ascending ascending, bankBelow]
  refine congrArg (List.countP · _) (funext fun j => Bool.eq_iff_iff.mpr ?_)
  simp only [Bool.and_eq_true, decide_eq_true_eq, mem, bank]
  tauto

/-! ### The columns that a plan moves (R138) -/

theorem bankColumns_ascending (k : Fin 4) : (bankColumns k).Pairwise (· < ·) := by revert k; decide +kernel

theorem mem_bankColumns (k : Fin 4) (c : Fin 80) : c ∈ bankColumns k ↔ c.val / 20 = k.val := by revert k c; decide +kernel

/-- R137: the strokable candidates of a row. -/
theorem State.strokable_getLsbD (s : State) (r : Fin 128) (c : Fin 80) :
    (s.strokable r).getLsbD c.val = true ↔ s.Strokable r c := by
  have candidate : (s.candidates r).getLsbD c.val = true ↔
      s.pins.known[r] = true ∧ s.comp.target[r].getLsbD c.val ≠ s.pins.confirmed[r].getLsbD c.val := by
    unfold State.candidates
    split
    · rename_i known; simp [known, -Fin.getElem_fin]
    · rename_i known; simp [known, -Fin.getElem_fin]
  have outside : ∀ x : PinRow, (~~~x).getLsbD c.val = true ↔ ¬ x.getLsbD c.val = true := fun x => by simp
  rw [State.strokable, BitVec.getLsbD_and, BitVec.getLsbD_and, Bool.and_eq_true, Bool.and_eq_true, candidate, outside,
    outside, PinField.stuckColumns_getLsbD, State.touchedColumns_getLsbD]
  simp only [not_exists, not_and]
  tauto

theorem State.markPin_iff (s : State) (r : Fin 128) (c : Fin 80) :
    s.markPin r c = true ↔ r.val % 4 = 3 ∧ s.comp.markPins[lineOfRow r].getLsbD c.val = true := by
  simp [State.markPin, rowInLine, Fin.ext_iff]

section
variable (s : State) (r : Fin 128)

/-- R138: the columns of a bank that are chosen are some of the bank's, in their order. -/
theorem State.bankChoice_sublist (k : Fin 4) : (s.bankChoice r k).Sublist (bankColumns k) := by
  rw [State.bankChoice]
  have whole := List.filter_sublist (l := bankColumns k) (p := fun c => (s.strokable r).getLsbD c.val)
  refine .trans ?_ whole
  conv_rhs => rw [← List.take_append_drop s.drive.bankCap ((bankColumns k).filter fun c => (s.strokable r).getLsbD c.val)]
  exact (List.Sublist.refl _).append ((List.take_sublist _ _).trans List.filter_sublist)

theorem State.planMoves_cols : (s.planMoves r).map Move.col = (List.finRange 4).flatMap (s.bankChoice r) := by
  rw [State.planMoves, List.map_map]
  exact List.map_id _

/-- R138: the moves of a plan stand in ascending column order. -/
theorem State.planMoves_ascending : ((s.planMoves r).map Move.col).Pairwise (· < ·) := by
  rw [State.planMoves_cols, List.pairwise_flatMap]
  refine ⟨fun k _ => (bankColumns_ascending k).sublist (s.bankChoice_sublist r k),
    (List.pairwise_lt_finRange 4).imp fun {j k} lt a ha b hb => ?_⟩
  have bankA := (mem_bankColumns j a).mp ((s.bankChoice_sublist r j).subset ha)
  have bankB := (mem_bankColumns k b).mp ((s.bankChoice_sublist r k).subset hb)
  rw [Fin.lt_def] at lt ⊢
  omega

variable {s r} {able mark : Fin 80 → Bool} (hable : ∀ c, able c = true ↔ s.Strokable r c)
  (hmark : ∀ c, mark c = true ↔ r.val % 4 = 3 ∧ s.comp.markPins[lineOfRow r].getLsbD c.val = true)
include hable hmark

/-- R138: the first pass takes the strokable candidates of a bank up to BANK_CAP, the second goes on after them and takes mark
pins up to MARK_EXTRA. -/
theorem State.mem_bankChoice (k : Fin 4) (c : Fin 80) : c ∈ s.bankChoice r k ↔ c.val / 20 = k.val ∧ able c = true ∧
    (bankBelow able c < s.drive.bankCap ∨ (mark c = true ∧
      bankBelow (fun j => able j && mark j && decide (s.drive.bankCap ≤ bankBelow able j)) c < s.drive.markExtra)) := by
  rw [State.bankChoice]
  generalize hcols : (bankColumns k).filter (fun c => (s.strokable r).getLsbD c.val) = cols
  have colsUp : cols.Pairwise (· < ·) := hcols ▸ (bankColumns_ascending k).filter _
  have colsMem : ∀ j, j ∈ cols ↔ j.val / 20 = k.val ∧ able j = true := fun j => by
    rw [← hcols, List.mem_filter, mem_bankColumns, State.strokable_getLsbD, hable]
  have marksUp : ((cols.drop s.drive.bankCap).filter (s.markPin r)).Pairwise (· < ·) :=
    (colsUp.sublist (List.drop_sublist _ _)).filter _
  have marksMem : ∀ j, j ∈ (cols.drop s.drive.bankCap).filter (s.markPin r) ↔ j.val / 20 = k.val ∧
      (able j && mark j && decide (s.drive.bankCap ≤ bankBelow able j)) = true := fun j => by
    rw [List.mem_filter, mem_drop_ascending colsUp, colsMem, State.markPin_iff, ← hmark, and_assoc]
    simp only [and_assoc, Bool.and_eq_true, decide_eq_true_eq]
    refine and_congr_right fun bank => ?_
    rw [countP_bank colsUp colsMem bank]
    tauto
  rw [List.mem_append, mem_take_ascending colsUp, mem_take_ascending marksUp, colsMem, marksMem]
  by_cases bank : c.val / 20 = k.val
  · rw [countP_bank colsUp colsMem bank, countP_bank marksUp marksMem bank]
    simp only [bank, true_and, Bool.and_eq_true, decide_eq_true_eq]
    have either := Nat.lt_or_ge (bankBelow able c) s.drive.bankCap
    tauto
  · simp [bank]

/-- R137, R138: which pins a plan moves. -/
theorem State.moved_iff (c : Fin 80) : (∃ m ∈ s.planMoves r, m.col = c) ↔ able c = true ∧
    (bankBelow able c < s.drive.bankCap ∨ (mark c = true ∧
      bankBelow (fun j => able j && mark j && decide (s.drive.bankCap ≤ bankBelow able j)) c < s.drive.markExtra)) := by
  rw [← List.mem_map, State.planMoves_cols, List.mem_flatMap]
  simp only [List.mem_finRange, true_and, State.mem_bankChoice hable hmark]
  exact ⟨fun ⟨_, _, h⟩ => h, fun h => ⟨⟨c.val / 20, by omega⟩, rfl, h⟩⟩

end

/-! ### The zones whose hold timers are started (R137, R172) -/

/-- R172: the zones after one may have been named. -/
theorem Touch.mayStartHold_zone (t : Touch) (p : Prop) [Decidable p] (z y : Fin 16) :
    (if p then t else t.startHold z).zones[y] =
      if y = z ∧ ¬ p ∧ t.zones[y].state = .touched ∧ t.zones[y].hold = none then
        { t.zones[y] with hold := some t.holdLimit } else t.zones[y] := by
  by_cases unnamed : p
  · simp [unnamed]
  · rw [if_neg unnamed, Touch.startHold]
    by_cases eq : y = z
    · subst eq
      simp only [unnamed, not_false_eq_true, true_and]
      split
      · rw [getElem_set_fin, if_pos rfl]
      · rfl
    · simp only [eq, false_and, if_false]
      split
      · rw [getElem_set_fin, if_neg eq]
      · rfl

theorem Touch.mayStartHold_limit (t : Touch) (p : Prop) [Decidable p] (z : Fin 16) :
    (if p then t else t.startHold z).holdLimit = t.holdLimit := by
  split
  · rfl
  · rw [(t.startHold_frame z).1]

/-- R167: the zone of a pin, by the band of its row and the half of its column. -/
theorem zoneOfPin_eq_iff (r : Fin 128) (c : Fin 80) (h : Fin 2) : zoneOfPin r c = zoneAt (bandOfRow r) h ↔ halfOfCol c = h := by
  simp only [zoneOfPin, zoneAt, Fin.ext_iff]
  omega

/-- R137: a half of a row holds deferred candidates. -/
theorem State.deferred_half (s : State) (r : Fin 128) (h : Fin 2) : ¬ s.deferred r &&& halfColumns h = 0 ↔
    ∃ c : Fin 80, zoneOfPin r c = zoneAt (bandOfRow r) h ∧ s.Deferred r c := by
  have bit : ∀ c : Fin 80, (s.deferred r &&& halfColumns h).getLsbD c.val = true ↔
      zoneOfPin r c = zoneAt (bandOfRow r) h ∧ s.Deferred r c := fun c => by
    rw [BitVec.getLsbD_and, Bool.and_eq_true, State.deferred_getLsbD, halfColumns_getLsbD, zoneOfPin_eq_iff, and_comm]
  simp only [← bit]
  constructor
  · intro some
    by_contra none
    refine some (BitVec.eq_of_getLsbD_eq fun i hi => ?_)
    refine Eq.trans ?_ BitVec.getLsbD_zero.symm
    exact Bool.not_eq_true _ |>.mp fun on => none ⟨⟨i, hi⟩, on⟩
  · rintro ⟨c, on⟩ zero
    rw [zero] at on
    exact Bool.false_ne_true (BitVec.getLsbD_zero.symm.trans on)

/-- R137, R172: the TOUCHED zones that hold deferred candidates of the row have their stopped hold timers started. -/
theorem State.reportDeferred_zone (s : State) (r : Fin 128) (z : Fin 16) : (s.reportDeferred r).touch.zones[z] =
    if s.touch.zones[z].state = .touched ∧ s.touch.zones[z].hold = none ∧ ∃ c : Fin 80, zoneOfPin r c = z ∧ s.Deferred r c then
      { s.touch.zones[z] with hold := some s.touch.holdLimit } else s.touch.zones[z] := by
  have apart : zoneAt (bandOfRow r) 0 ≠ zoneAt (bandOfRow r) 1 := by simp [zoneAt, Fin.ext_iff]
  simp only [State.reportDeferred, State.setTouch_touch, Touch.mayStartHold_zone, Touch.mayStartHold_limit,
    State.deferred_half]
  by_cases right : z = zoneAt (bandOfRow r) 1
  · subst right
    simp only [apart.symm, true_and, false_and, if_false]
    exact ite_congr (propext (by tauto)) (fun _ => rfl) fun _ => rfl
  by_cases left : z = zoneAt (bandOfRow r) 0
  · subst left
    simp only [apart, true_and, false_and, if_false]
    exact ite_congr (propext (by tauto)) (fun _ => rfl) fun _ => rfl
  · have elsewhere : ¬ ∃ c : Fin 80, zoneOfPin r c = z ∧ s.Deferred r c := by
      rintro ⟨c, rfl, -⟩
      obtain half | half : halfOfCol c = 0 ∨ halfOfCol c = 1 := by omega
      · exact left ((zoneOfPin_eq_iff r c 0).mpr half)
      · exact right ((zoneOfPin_eq_iff r c 1).mpr half)
    simp only [right, left, elsewhere, false_and, and_false, if_false]

/-- R172: nothing but zones changes. -/
theorem State.reportDeferred_eq (s : State) (r : Fin 128) :
    s.reportDeferred r = { s with touch := { s.touch with zones := (s.reportDeferred r).touch.zones } } := by
  have touch := (PinPath.reportDeferred s r).touch
  exact congrArg s.setTouch touch

/-! ### Asking for a stroke, and forming a waiting plan again (R139, R141, R142) -/

section
variable {s : State} {r : Fin 128}

theorem State.askDrive_noMove (none : s.planMoves r = []) :
    s.askDrive r = ({ s.reportDeferred r with drive := { s.drive with cond := .noPlan } }, false) := by
  rw [State.askDrive, none]
  rfl

/-- R139, R141: a plan with moves starts when the level has reached its cost, and waits until then. -/
theorem State.askDrive_moves (some : s.planMoves r ≠ []) {p : Plan}
    (hp : p = ⟨.drive, r, s.planMoves r, planCost (s.planMoves r), s.drive.strokeTime⟩) :
    s.askDrive r = (if p.cost ≤ s.drive.level then
        { s.reportDeferred r with drive := s.drive.fly p, cal := s.cal.strokeStarted .drive }
      else { s.reportDeferred r with drive := { s.drive with cond := .waitCharge p } }, true) := by
  have held : s.askDrive r = ((s.reportDeferred r).holdPlan p, true) := by
    obtain ⟨m, ms, moves⟩ := List.exists_cons_of_ne_nil some
    rw [hp, State.askDrive, moves]
    rfl
  subst hp
  rw [held]
  rfl

theorem State.reform_waiting {p : Plan} {rows : Fin 128 → Bool} (waits : s.drive.cond = .waitCharge p)
    (drive : p.kind = .drive) (row : p.row = r) (named : rows r = true) :
    s.reform rows = if s.planMoves r = [] then (s.askDrive r).1.rowNothing else (s.askDrive r).1 := by
  subst row
  simp only [State.reform, waits, drive, named, and_self, if_true]
  split
  · rename_i t asked
    rw [asked, if_neg]
    intro none
    rw [State.askDrive_noMove none] at asked
    cases asked
  · rename_i t asked
    rw [asked, if_pos]
    by_contra some
    rw [State.askDrive_moves some rfl] at asked
    cases asked

theorem State.reform_elsewhere {rows : Fin 128 → Bool}
    (h : ∀ p, s.drive.cond = .waitCharge p → p.kind = .drive → rows p.row = false) : s.reform rows = s := by
  unfold State.reform
  split
  · rename_i p waits
    exact if_neg fun ⟨drive, named⟩ => by simp [h p waits drive] at named
  · rfl

end

end Sys2Proof.Machine

section
open Sys2Proof Sys2Proof.Machine

/-- Settles O45: the banks' choices give the moves, the report starts the hold timers, and asking holds the plan. -/
theorem plansAreFormed : Obligations.PlansAreFormed := by
  rintro s r able mark _ hable hmark rfl
  refine ⟨s.planMoves_ascending r, State.moved_iff hable hmark, fun m hm => ?_, rfl,
    ⟨s.reportDeferred r, s.reportDeferred_eq r, s.reportDeferred_zone r, State.askDrive_noMove,
      fun some p => State.askDrive_moves some⟩, fun rows => ⟨fun p => State.reform_waiting, State.reform_elsewhere⟩⟩
  obtain ⟨c, -, rfl⟩ := List.mem_map.mp hm
  exact ⟨rfl, rfl⟩

end
end

section
/-! SUPPORT. What navigation's condition is judged by: the directory and navigation itself. The compositor, the pin path, the
drive, the calendar, the zones and the link leave both alone. -/

namespace Sys2Proof.Machine

/-- The blocks that navigation's condition speaks of (R65, R66, R68). -/
def State.browsed (s : State) : Directory × Navigation := (s.dir, s.nav)

theorem State.browsed_offDrive : OffDrive State.browsed :=
  ⟨fun _ _ => rfl, fun _ _ => rfl, fun _ _ => rfl, fun _ _ => by simp [State.browsed]⟩

theorem PinPath.browsed {s t : State} (h : PinPath s t) : t.browsed = s.browsed := by
  rw [State.browsed, h.dir, h.nav, State.browsed]

section
variable (s : State)

@[simp] theorem State.setLink_browsed (x : Link) : (s.setLink x).browsed = s.browsed := rfl
@[simp] theorem State.setLoad_browsed (x : Decoder) : (s.setLoad x).browsed = s.browsed := rfl
@[simp] theorem State.setSweep_browsed (x : Option SweepRun) : (s.setSweep x).browsed = s.browsed := rfl
@[simp] theorem State.setComp_browsed (x : Compositor) : (s.setComp x).browsed = s.browsed := rfl
@[simp] theorem State.setPins_browsed (x : PinField) : (s.setPins x).browsed = s.browsed := rfl
@[simp] theorem State.setDrive_browsed (x : Drive) : (s.setDrive x).browsed = s.browsed := rfl
@[simp] theorem State.setCal_browsed (x : Calendar) : (s.setCal x).browsed = s.browsed := rfl
@[simp] theorem State.setTouch_browsed (x : Touch) : (s.setTouch x).browsed = s.browsed := rfl
@[simp] theorem State.post_browsed (n : Notice) : (s.post n).browsed = s.browsed := State.browsed_offDrive.post s n

/-! ### The pin path -/

@[simp] theorem State.recompose_browsed (lines : List (Fin 32)) : (s.recompose lines).browsed = s.browsed :=
  (PinPath.recompose s lines).browsed
@[simp] theorem State.reform_browsed (rows : Fin 128 → Bool) : (s.reform rows).browsed = s.browsed :=
  (PinPath.reform s rows).browsed
@[simp] theorem State.wake_browsed : s.wake.browsed = s.browsed := (PinPath.wake s).browsed
@[simp] theorem State.requestSurvey_browsed : s.requestSurvey.browsed = s.browsed := (PinPath.requestSurvey s).browsed
@[simp] theorem State.startIfCharged_browsed : s.startIfCharged.browsed = s.browsed := (PinPath.startIfCharged s).browsed
@[simp] theorem State.strokeDone_browsed : s.strokeDone.browsed = s.browsed := State.browsed_offDrive.strokeDone s

theorem State.takeUp_browsed {announce : State → State} (announced : ∀ u, (announce u).browsed = u.browsed) :
    (s.takeUp announce).browsed = s.browsed := State.browsed_offDrive.takeUp s announced

/-! ### The compositor, the drive, the pin field and the zones -/

theorem State.setStatus_browsed (on : Bool) (time : Nat) (text : Vector Byte 30) :
    (s.setStatus on time text).browsed = s.browsed := by
  unfold State.setStatus State.blinkChanged
  simp only
  split_ifs <;> simp

theorem State.setGlyphs_browsed (g : Glyphs) : (s.setGlyphs g).browsed = s.browsed := by
  unfold State.setGlyphs
  simp only
  split <;> simp

theorem State.pauseDrive_browsed : s.pauseDrive.browsed = s.browsed := by
  unfold State.pauseDrive
  cases s.cal.sched with
  | surveying | driving => simp only; split <;> rfl
  | idle | paused | supplyLow => rfl

theorem State.resumeDrive_browsed : s.resumeDrive.browsed = s.browsed := by
  unfold State.resumeDrive
  cases s.cal.sched with
  | paused => exact State.takeUp_browsed (s.setCal { s.cal with hold := false }) fun _ => rfl
  | idle => simp
  | surveying | driving | supplyLow => rfl

theorem State.surveyAll_browsed : s.surveyAll.browsed = s.browsed := by
  unfold State.surveyAll
  cases s.cal.sched with
  | driving => simp only; split <;> simp
  | idle => simp
  | surveying | paused | supplyLow => rfl

theorem State.clearFaults_browsed (sel : FaultSelector) : (s.clearFaults sel).browsed = s.browsed := by
  unfold State.clearFaults
  simp only
  split <;> simp

theorem State.takeResult_browsed (p : Plan) (sensed : PinRow) : (s.takeResult p sensed).browsed = s.browsed := by
  unfold State.takeResult
  split
  · rfl
  · simp only
    split <;> simp

theorem State.supplyLost_browsed : s.supplyLost.browsed = s.browsed := by
  unfold State.supplyLost State.discardStroke
  split <;> exact State.browsed_offDrive.post _ _

theorem State.supplyBack_browsed : s.supplyBack.browsed = s.browsed := by
  unfold State.supplyBack
  simp only
  split
  · exact State.browsed_offDrive.post _ _
  · exact State.takeUp_browsed _ fun u => State.browsed_offDrive.post u _

theorem State.zoneTakes_browsed (z : Fin 16) (r : Zone × Bool) : (s.zoneTakes z r).browsed = s.browsed := by
  have changed : ∀ (u : State) (b : Bool), (u.zoneChanged z b).browsed = u.browsed := fun u b => by
    obtain ⟨t, path, e⟩ := u.zoneChanged_eq z b
    rw [e]
    exact (State.browsed_offDrive.post t _).trans path.browsed
  unfold State.zoneTakes
  simp only
  split_ifs
  · exact changed _ _
  · exact changed _ _
  · rfl

end

/-! ### The rules of the settings -/

section
variable (p : List Byte) (s : State)

theorem setStatusRule_browsed : (setStatusRule p s).1.browsed = s.browsed := by
  unfold setStatusRule
  split
  · split
    · rfl
    · split
      · exact s.setStatus_browsed _ _ _
      · rfl
  · rfl

theorem setDriveRule_browsed : (setDriveRule p s).1.browsed = s.browsed := by
  unfold setDriveRule
  split
  · split
    · exact State.reform_browsed _ _
    · rfl
  · rfl

theorem setCalendarRule_browsed : (setCalendarRule p s).1.browsed = s.browsed := by
  unfold setCalendarRule
  split
  · rfl
  · simp only
    split <;> rfl

theorem setTouchRule_browsed : (setTouchRule p s).1.browsed = s.browsed := by
  unfold setTouchRule
  split
  · split <;> rfl
  · rfl

theorem setNoticeMaskRule_browsed : (setNoticeMaskRule p s).1.browsed = s.browsed := by
  unfold setNoticeMaskRule
  split
  · split <;> rfl
  · rfl

theorem setControlCodesRule_browsed : (setControlCodesRule p s).1.browsed = s.browsed := by
  unfold setControlCodesRule
  split
  · rfl
  · simp only
    split_ifs <;> rfl

theorem clearFaultsRule_browsed : (clearFaultsRule p s).1.browsed = s.browsed := by
  unfold clearFaultsRule
  split
  · split
    · rfl
    · exact s.clearFaults_browsed _
  · rfl

end

/-! ### The transactions and the strokes -/

section
variable {s t : State}

theorem execWriteCommand_browsed {shown : Byte} {bytes : List Byte} (h : execWriteCommand shown bytes s = .next t) :
    t.browsed = s.browsed := by
  unfold execWriteCommand at h
  simp only at h
  split_ifs at h
  · cases h; rfl
  · cases h; rfl
  · cases h; rfl
  · split at h <;> cases h <;> rfl

theorem execReadResponse_browsed {n : Nat} (h : execReadResponse n s = .next t) : t.browsed = s.browsed := by
  unfold execReadResponse at h
  split_ifs at h <;> cases h <;> rfl

theorem execReadNotice_browsed {n : Nat} (h : execReadNotice n s = .next t) : t.browsed = s.browsed := by
  unfold execReadNotice at h
  split_ifs at h <;> cases h <;> rfl

theorem execStrokeCompletion_browsed {sensed : PinRow} (h : execStrokeCompletion sensed s = .next t) :
    t.browsed = s.browsed := by
  unfold execStrokeCompletion at h
  split at h
  · cases h; rfl
  · split at h <;> cases h
    · exact (State.strokeDone_browsed _).trans (s.takeResult_browsed _ sensed)
    · rfl

end

end Sys2Proof.Machine
end

section
/-! SUPPORT. When the directory goes on withholding a key from navigation (R66), and what an evaluation and each telling of
navigation restore (R67, R68, R74 to R77). -/

namespace Sys2Proof.Machine

/-! ### A key that is withheld -/

/-- R66: the directory does not offer key `k`, for the reason that condition `c` names. -/
structure Directory.Withholds (d : Directory) (c : NavCondition) (k : Key) : Prop where
  miss : c = .waitMiss → d.visibleEntry k = none
  load : c = .waitLoad → d.visibleEntry k = none ∧ (d.loadingEntry k).isSome = true
  sweep : c = .waitSweep → (d.visibleEntry k).any (fun i => d.entries[i].held) = true

/-- Of key `k`, `d'` shows nothing that `d` did not, and has kept its load and its HELD entry. -/
structure Directory.GoesOnWithholding (d d' : Directory) (k : Key) : Prop where
  visible : ∀ j : Fin 48, d'.entries[j].visible = true → d'.entries[j].key = some k →
    d.entries[j].visible = true ∧ d.entries[j].key = some k
  loading : ∀ j : Fin 48, d.entries[j].state = .loading → d.entries[j].key = some k →
    d'.entries[j].state = .loading ∧ d'.entries[j].key = some k
  held : ∀ j : Fin 48, d.entries[j].visible = true → d.entries[j].key = some k → d.entries[j].held = true →
    d'.entries[j].visible = true ∧ d'.entries[j].key = some k ∧ d'.entries[j].held = true

theorem Directory.loadingEntry_isSome {d : Directory} {k : Key} :
    (d.loadingEntry k).isSome = true ↔ ∃ i : Fin 48, d.entries[i].state = .loading ∧ d.entries[i].key = some k := by
  simp [Directory.loadingEntry]

theorem Directory.Withholds.step {d d' : Directory} {c : NavCondition} {k : Key} (h : d.Withholds c k)
    (unique : d.KeysUnique) (keeps : d.GoesOnWithholding d' k) : d'.Withholds c k := by
  have hidden : d.visibleEntry k = none → d'.visibleEntry k = none := fun none =>
    Directory.visibleEntry_none.mpr fun j visible key =>
      Directory.visibleEntry_none.mp none j (keeps.visible j visible key).1 (keeps.visible j visible key).2
  refine ⟨hidden ∘ h.miss, fun hc => ⟨hidden (h.load hc).1, ?_⟩, fun hc => ?_⟩
  · obtain ⟨i, loading, key⟩ := Directory.loadingEntry_isSome.mp (h.load hc).2
    exact Directory.loadingEntry_isSome.mpr ⟨i, keeps.loading i loading key⟩
  · obtain ⟨v, found, held⟩ := (Option.any_eq_true _ _).mp (h.sweep hc)
    obtain ⟨visible, key⟩ := Directory.visibleEntry_some found
    obtain ⟨visible', key', held'⟩ := keeps.held v visible key held
    cases found' : d'.visibleEntry k with
    | none => exact absurd key' (Directory.visibleEntry_none.mp found' v visible')
    | some w =>
      obtain ⟨wVisible, wKey⟩ := Directory.visibleEntry_some found'
      obtain ⟨wVisible, wKey⟩ := keeps.visible w wVisible wKey
      obtain rfl := unique w v wVisible visible (wKey.trans key.symm)
      exact held'

/-- Entry `i` alone becomes another. -/
theorem Directory.GoesOnWithholding.update {d d' : Directory} {k : Key} {i : Fin 48} {e : Entry}
    (entries : ∀ j : Fin 48, d'.entries[j] = if j = i then e else d.entries[j])
    (visible : e.visible = true → e.key = some k → d.entries[i].visible = true ∧ d.entries[i].key = some k)
    (loading : d.entries[i].state = .loading → d.entries[i].key = some k → e.state = .loading ∧ e.key = some k)
    (held : d.entries[i].visible = true → d.entries[i].key = some k → d.entries[i].held = true →
      e.visible = true ∧ e.key = some k ∧ e.held = true) : d.GoesOnWithholding d' k := by
  refine ⟨fun j => ?_, fun j => ?_, fun j => ?_⟩
  all_goals
    rw [entries]
    split
    · rename_i same
      subst same
      assumption
  · exact fun v key => ⟨v, key⟩
  · exact fun l key => ⟨l, key⟩
  · exact fun v key h => ⟨v, key, h⟩

/-- Entry `i` keeps its state, its key and its HELD flag. -/
theorem Directory.GoesOnWithholding.contents {d d' : Directory} {i : Fin 48} {e : Entry}
    (entries : ∀ j : Fin 48, d'.entries[j] = if j = i then e else d.entries[j]) (state : e.state = d.entries[i].state)
    (key : e.key = d.entries[i].key) (held : e.held = d.entries[i].held) (k : Key) : d.GoesOnWithholding d' k := by
  have visible := Entry.visible_of_state state
  exact .update entries (fun v hk => ⟨visible ▸ v, key ▸ hk⟩) (fun l hk => ⟨state ▸ l, key ▸ hk⟩)
    fun v hk h => ⟨visible ▸ v, key ▸ hk, held ▸ h⟩

/-- Entry `i` held another key than `k`, or none, and so it does now. -/
theorem Directory.GoesOnWithholding.otherKey {d d' : Directory} {k : Key} {i : Fin 48} {e : Entry}
    (entries : ∀ j : Fin 48, d'.entries[j] = if j = i then e else d.entries[j]) (before : d.entries[i].key ≠ some k)
    (after : e.key ≠ some k) : d.GoesOnWithholding d' k :=
  .update entries (fun _ hk => absurd hk after) (fun _ hk => absurd hk before) fun _ hk => absurd hk before

/-! ### Navigation that has not been told of every key -/

/-- The condition of navigation is true of the directory, unless the wanted key is among `untold`. -/
structure State.NavigatesBut (s : State) (untold : List Key) : Prop where
  settled : s.nav.cond = .settled → s.nav.wantedKey = s.nav.shownKey
  wants : s.nav.cond ≠ .settled → s.nav.wanted ≠ none
  captured : s.nav.cond = .waitMiss → s.nav.missLocked = true
  named : s.nav.missLocked = true → s.nav.missKey ≠ none
  withheld : ∀ k ∈ s.nav.wantedKey, k ∉ untold → s.dir.Withholds s.nav.cond k

theorem State.navigatesBut_nil (s : State) : s.NavigatesBut [] ↔ s.NavigationAgrees := by
  constructor
  · rintro ⟨settled, wants, captured, named, withheld⟩
    refine ⟨settled, wants, captured, named, fun k hk => ?_⟩
    obtain ⟨miss, load, sweep⟩ := withheld k hk List.not_mem_nil
    exact ⟨miss, load, sweep⟩
  · rintro ⟨settled, wants, captured, named, withheld⟩
    refine ⟨settled, wants, captured, named, fun k hk _ => ?_⟩
    obtain ⟨miss, load, sweep⟩ := withheld k hk
    exact ⟨miss, load, sweep⟩

section
variable {s t : State} {k : Key} {untold : List Key}

theorem State.NavigationAgrees.congr (h : s.NavigationAgrees) (same : t.browsed = s.browsed) : t.NavigationAgrees := by
  obtain ⟨dir, nav⟩ := Prod.mk.inj same
  simpa only [State.NavigationAgrees, dir, nav] using h

theorem State.NavigatesBut.congr (h : s.NavigatesBut untold) (same : t.browsed = s.browsed) : t.NavigatesBut untold := by
  obtain ⟨dir, nav⟩ := Prod.mk.inj same
  obtain ⟨settled, wants, captured, named, withheld⟩ := h
  rw [← nav] at settled wants captured named withheld
  rw [← dir] at withheld
  exact ⟨settled, wants, captured, named, withheld⟩

theorem State.NavigationAgrees.but (h : s.NavigationAgrees) (untold : List Key) : s.NavigatesBut untold := by
  obtain ⟨settled, wants, captured, named, withheld⟩ := s.navigatesBut_nil.mpr h
  exact ⟨settled, wants, captured, named, fun k hk _ => withheld k hk List.not_mem_nil⟩

/-- The directory changes in what it offers of the untold keys alone. -/
theorem State.NavigationAgrees.changes (h : s.NavigationAgrees) (agree : s.PagesAgree) (nav : t.nav = s.nav)
    (keeps : ∀ k, k ∉ untold → s.dir.GoesOnWithholding t.dir k) : t.NavigatesBut untold := by
  obtain ⟨settled, wants, captured, named, withheld⟩ := s.navigatesBut_nil.mpr h
  rw [← nav] at settled wants captured named withheld
  exact ⟨settled, wants, captured, named, fun k hk told =>
    (withheld k hk List.not_mem_nil).step agree.2.2.1 (keeps k told)⟩

/-- The directory goes on withholding every key. -/
theorem State.NavigationAgrees.withholding (h : s.NavigationAgrees) (agree : s.PagesAgree) (nav : t.nav = s.nav)
    (keeps : ∀ k, s.dir.GoesOnWithholding t.dir k) : t.NavigationAgrees :=
  t.navigatesBut_nil.mp (h.changes agree nav fun k _ => keeps k)

/-- R66: nothing is asked of the directory for a SETTLED navigation. -/
theorem Directory.Withholds.of_settled (d : Directory) (k : Key) : d.Withholds .settled k := ⟨nofun, nofun, nofun⟩

/-! ### Evaluations and tellings -/

/-- R77: telling navigation of a move does what R77 says, whatever it has to evaluate. -/
theorem State.keyMoved_tellsMoved (s : State) (old new : Key) (shown : Bool) :
    s.TellsMoved old new shown (s.keyMoved old new shown) :=
  s.keyMoved_tells old new shown fun _ => State.evaluate_evaluates _ _

/-- R67, R68: an evaluation finds the condition anew. -/
theorem State.Evaluates.navigates {cause : ShownCause} (h : s.Evaluates cause t) (wants : s.nav.wanted ≠ none)
    (named : s.nav.missLocked = true → s.nav.missKey ≠ none) : t.NavigationAgrees := by
  obtain ⟨p, hp⟩ := Option.ne_none_iff_exists'.mp wants
  have hk : s.nav.wantedKey = some ⟨s.nav.document, p⟩ := by rw [Navigation.wantedKey, hp]; rfl
  obtain ⟨u, evaluated, path, -⟩ := h _ hk
  refine State.NavigationAgrees.congr (s := u) (u.navigatesBut_nil.mp ?_) path.browsed
  cases found : s.dir.lookup ⟨s.nav.document, p⟩ with
  | visible v =>
    obtain ⟨hv, free⟩ := Directory.lookup_visible.mp found
    rw [evaluated.visible v hv free]
    refine State.NavigatesBut.congr ?_ (State.post_browsed _ _)
    exact ⟨fun _ => hk, fun h => absurd rfl h, nofun, named, fun _ _ _ => .of_settled _ _⟩
  | held v =>
    obtain ⟨hv, held⟩ := Directory.lookup_held.mp found
    rw [evaluated.held v hv held]
    refine ⟨nofun, fun _ => wants, nofun, named, fun k' hk' _ => ⟨nofun, nofun, fun _ => ?_⟩⟩
    obtain rfl := Option.some.inj (hk.symm.trans hk')
    exact (Option.any_eq_true _ _).mpr ⟨v, hv, held⟩
  | loading slot =>
    obtain ⟨hidden, i, hi, -⟩ := Directory.lookup_loading.mp found
    obtain ⟨loading, key⟩ := Directory.loadingEntry_some hi
    rw [evaluated.loading i hidden loading key]
    refine ⟨nofun, fun _ => wants, nofun, named, fun k' hk' _ => ⟨nofun, fun _ => ?_, nofun⟩⟩
    obtain rfl := Option.some.inj (hk.symm.trans hk')
    exact ⟨hidden, Directory.loadingEntry_isSome.mpr ⟨i, loading, key⟩⟩
  | absent =>
    have absent := Directory.lookup_absent.mp found
    have missing : ∀ k' ∈ s.nav.wantedKey, s.dir.Withholds .waitMiss k' := fun k' hk' => by
      obtain rfl := Option.some.inj (hk.symm.trans hk')
      exact ⟨fun _ => Directory.visibleEntry_none.mpr fun j hj => absent j (Entry.visible_ne_free hj), nofun, nofun⟩
    rw [evaluated.absent absent]
    split
    · rename_i locked
      exact ⟨nofun, fun _ => wants, fun _ => locked, named, fun k' hk' _ => missing k' hk'⟩
    · refine State.NavigatesBut.congr ?_ (State.post_browsed _ _)
      exact ⟨nofun, fun _ => wants, fun _ => rfl, fun _ => nofun, fun k' hk' _ => missing k' hk'⟩

/-- R67: a page is wanted, whatever was wanted before, and its key is evaluated. -/
theorem State.wantPage_navigates (named : s.nav.missLocked = true → s.nav.missKey ≠ none) (page : BitVec 16)
    (cause : ShownCause) : (s.wantPage page cause).NavigationAgrees :=
  (s.wantPage_evaluates page cause).navigates nofun named

/-- Nothing need be told of a key that no waiting navigation wants. -/
theorem State.NavigatesBut.unasked (h : s.NavigatesBut (k :: untold))
    (unasked : ¬ (s.nav.cond ≠ .settled ∧ s.nav.wantedKey = some k)) : s.NavigatesBut untold := by
  refine ⟨h.settled, h.wants, h.captured, h.named, fun k' hk' told => ?_⟩
  by_cases waits : s.nav.cond = .settled
  · rw [waits]; exact .of_settled _ _
  · refine h.withheld k' hk' fun mem => ?_
    rcases List.mem_cons.mp mem with rfl | mem
    · exact unasked ⟨waits, hk'⟩
    · exact told mem

/-- R75, R76: a telling of a key settles what the condition says of that key. -/
theorem State.NavigatesBut.loadEnded (h : s.NavigatesBut (k :: untold)) : (s.loadEnded k).NavigatesBut untold := by
  have told := s.loadEnded_tellsKey k
  unfold State.TellsKey at told
  split at told
  · rename_i asked
    exact (told.navigates (h.wants asked.1) h.named).but untold
  · rename_i unasked
    rw [told]
    exact h.unasked unasked

theorem State.NavigatesBut.keyReleased (h : s.NavigatesBut (k :: untold)) : (s.keyReleased k).NavigatesBut untold :=
  h.loadEnded

/-- R94: navigation is told of every key. -/
theorem State.NavigatesBut.tellReleased (h : s.NavigatesBut untold) : (s.tellReleased untold).NavigationAgrees := by
  induction untold generalizing s with
  | nil => exact s.navigatesBut_nil.mp h
  | cons k rest ih => exact ih h.keyReleased

/-- R74: navigation is told of a committed key. -/
theorem State.NavigatesBut.keyCommitted (h : s.NavigatesBut [k]) : (s.keyCommitted k).NavigationAgrees := by
  have named : ∀ b : Bool, (s.nav.missLocked && b) = true → s.nav.missKey ≠ none := fun b hb =>
    h.named ((Bool.and_eq_true _ _).mp hb).1
  obtain ⟨u, rfl, told⟩ := s.keyCommitted_tellsCommitted k
  split at told
  · rename_i asked
    exact told.navigates (h.wants asked.1) (named _)
  · rename_i unasked
    split at told
    · rename_i unlocked
      exact told.navigates (h.wants unlocked.1) (named _)
    · rename_i kept
      obtain ⟨settled, wants, captured, -, withheld⟩ := h.unasked unasked
      rw [told]
      refine (State.navigatesBut_nil _).mp ⟨settled, wants, fun misses => ?_, named _, withheld⟩
      replace misses : s.nav.cond = .waitMiss := misses
      exact (not_not.mp (not_and.mp kept (by rw [misses]; nofun))).trans (captured misses)

/-- R77: navigation is told of a move; of the SHOWN entry it had named the old key. -/
theorem State.NavigatesBut.keyMoved {old new : Key} (h : s.NavigatesBut [old, new]) (page : new.page = old.page)
    {shown : Bool} (namesOld : shown = true → s.nav.shownKey = some old) :
    (s.keyMoved old new shown).NavigationAgrees := by
  obtain ⟨u, hu, told⟩ := s.keyMoved_tellsMoved old new shown
  have dir : u.dir = s.dir := by rw [hu]
  have cond : u.nav.cond = s.nav.cond := by rw [hu]
  have wanted : u.nav.wanted = s.nav.wanted := by rw [hu]
  have named : u.nav.missLocked = true → u.nav.missKey ≠ none := by
    rw [hu]
    exact fun locked => h.named ((Bool.and_eq_true _ _).mp locked).1
  split at told
  · rename_i asked
    exact told.navigates (by rw [wanted]; exact h.wants asked.1) named
  rename_i kept
  rw [told]
  refine (State.navigatesBut_nil _).mp ⟨fun settled => ?_, fun waits => ?_, fun misses => ?_, named, fun k hk _ => ?_⟩
  · have same := h.settled (cond ▸ settled)
    rw [hu]
    cases shown with
    | false => exact same
    | true =>
      obtain ⟨p, hp, key⟩ := Option.map_eq_some_iff.mp (same.trans (namesOld rfl))
      have samePage : p = new.page := by rw [page, ← key]
      change s.nav.wanted.map (fun p => (⟨new.doc, p⟩ : Key)) = some new
      rw [hp, samePage, Option.map_some]
  · rw [wanted]
    exact h.wants (cond ▸ waits)
  · have misses' : s.nav.cond = .waitMiss := cond ▸ misses
    by_contra changed
    refine kept ⟨by rw [misses']; nofun, .inr (.inr (.inl ?_))⟩
    rw [h.captured misses']
    exact changed
  · rw [dir, cond]
    by_cases waits : s.nav.cond = .settled
    · rw [waits]; exact .of_settled _ _
    · simp only [not_and_or, not_or, not_not] at kept
      obtain ⟨notOld, notNew, -, document⟩ := kept.resolve_left waits
      have same : s.nav.wantedKey = some k := by
        rw [← Option.mem_def.mp hk, Navigation.wantedKey, Navigation.wantedKey, wanted, document]
      refine h.withheld k same ?_
      simp only [List.mem_cons, List.not_mem_nil, or_false, not_or]
      exact ⟨fun e => notOld (e ▸ same), fun e => notNew (e ▸ hk)⟩

end

end Sys2Proof.Machine
end

section
/-! SUPPORT. Navigation's condition after each rule and each event that changes the directory or tells navigation of a key
(R66 to R77). -/

namespace Sys2Proof.Machine

namespace State.NavigationAgrees

variable {s t : State} (h : s.NavigationAgrees) (agree : s.PagesAgree)

include h

/-! ### Navigation's own commands and the patron keys (R69 to R73) -/

/-- R68: what a locked miss record names. -/
theorem named : s.nav.missLocked = true → s.nav.missKey ≠ none := h.2.2.2.1

theorem showRule (p : List Byte) : (showRule p s).1.NavigationAgrees := by
  unfold Machine.showRule
  split
  · split
    · exact h
    · rename_i k _
      split
      · exact h
      · exact State.wantPage_navigates (s := s.setNav { s.nav with document := k.doc }) h.named _ _
  · exact h

/-- R73: the wanted key is the shown one again. -/
theorem declineMiss : s.declineMiss.NavigationAgrees := by
  obtain ⟨settled, wants, -, named, -⟩ := s.navigatesBut_nil.mpr h
  unfold State.declineMiss
  split
  · simp only
    split
    · refine State.NavigationAgrees.congr (State.navigatesBut_nil _ |>.mp ?_) (PinPath.tellCondition _ _).browsed
      refine ⟨fun _ => ?_, fun waits => absurd rfl waits, nofun, nofun, fun _ _ _ => .of_settled _ _⟩
      rw [State.setNav_nav, State.setNav_nav, Navigation.wantedKey, Navigation.returnToShown]
      cases s.nav.shownKey <;> rfl
    · rename_i rests
      have rests : s.nav.cond = .settled := not_not.mp (mt (Navigation.waiting_iff _).mpr rests)
      refine (State.navigatesBut_nil _).mp ⟨settled, wants, fun misses => ?_, nofun, fun k hk _ => ?_⟩
      · cases rests.symm.trans misses
      · change s.dir.Withholds s.nav.cond k
        rw [rests]
        exact .of_settled _ _
  · exact h

theorem setNavigationRule (p : List Byte) : (setNavigationRule p s).1.NavigationAgrees := by
  unfold Machine.setNavigationRule
  split
  · split
    · exact h
    · exact h
  · exact h

theorem pageStep (next : BitVec 16 → BitVec 16) : (s.pageStep next).NavigationAgrees := by
  unfold State.pageStep
  split
  · exact h
  · split_ifs
    · exact h
    · exact h
    · exact State.wantPage_navigates h.named _ _

theorem seek : s.seek.NavigationAgrees := by
  unfold State.seek
  split
  · exact h
  · split
    · exact h
    · split
      · exact State.wantPage_navigates h.named _ _
      · exact h

theorem post (n : Notice) : (s.post n).NavigationAgrees := h.congr (State.post_browsed s n)

include agree

/-- An entry takes other contents: its state, its key and its HELD flag stay. -/
theorem contents {d : Directory} {i : Fin 48} {e : Entry}
    (entries : ∀ j : Fin 48, d.entries[j] = if j = i then e else s.dir.entries[j])
    (state : e.state = s.dir.entries[i].state) (key : e.key = s.dir.entries[i].key)
    (held : e.held = s.dir.entries[i].held) : (s.setDir d).NavigationAgrees :=
  h.withholding agree rfl (.contents entries state key held)

/-- R53, R55, R56: the marks of an entry change, and the Compositor is told. -/
theorem setMarks (i : Fin 48) (marks : List Mark) (lines : List (Fin 32)) :
    ((s.setDir (s.dir.setMarks i marks)).tellLines i lines).NavigationAgrees :=
  (h.contents agree (d := s.dir.setMarks i marks) (fun _ => Directory.setEntry_entry _ _ _ _) rfl rfl rfl).congr
    (PinPath.tellLines _ _ _).browsed

theorem markPress : s.markPress.NavigationAgrees := by
  unfold State.markPress
  split
  · exact h
  · simp only
    split
    · exact h
    · split
      · exact h
      · exact h.setMarks agree _ _ _

theorem pressKey (k : PatronKey) : (s.pressKey k).NavigationAgrees := by
  cases k with
  | prev => exact (h.post _).pageStep _
  | next => exact (h.post _).pageStep _
  | mark => exact (h.post _).markPress ((State.PagesKept.post s _).agree agree)
  | seek => exact (h.post _).seek
  | call => exact h.post _

theorem pressKeys (keys : List PatronKey) : (s.pressKeys keys).NavigationAgrees := by
  induction keys generalizing s with
  | nil => exact h
  | cons k rest ih => exact ih (h.pressKey agree k) ((State.PagesKept.pressKey s k).agree agree)

theorem sample (down : Vector Bool 5) : (s.sample down).NavigationAgrees := by
  have keys : (s.setNav { s.nav with keys := sampleKeys s.nav.keys down }).NavigationAgrees := h
  exact keys.pressKeys ((State.PagesKept.setNav s _ rfl).agree agree) _

/-! ### The commands on entries and marks (R18 to R20, R53, R55) -/

theorem patchCellsRule (p : List Byte) : (patchCellsRule p s).1.NavigationAgrees := by
  unfold Machine.patchCellsRule
  split
  · split
    · split
      · split
        · exact h
        · rename_i i _
          refine (h.contents agree (i := i) (e := { s.dir.entries[i] with revision := s.dir.entries[i].revision + 1 })
            (fun _ => ?_) rfl rfl rfl).congr (PinPath.tellLines _ _ _).browsed
          exact Directory.setEntry_entry _ _ _ _
      · exact h
    · exact h
  · exact h

theorem addMarkRule (p : List Byte) : (addMarkRule p s).1.NavigationAgrees := by
  unfold Machine.addMarkRule
  split
  · split
    · split
      · exact h
      · simp only
        split_ifs
        · exact h
        · exact h.setMarks agree _ _ _
        · exact h
    · exact h
  · exact h

theorem dropMarksRule (p : List Byte) : (dropMarksRule p s).1.NavigationAgrees := by
  unfold Machine.dropMarksRule
  split
  · split
    · split
      · exact h
      · simp only
        split
        · exact h
        · exact h.setMarks agree _ _ _
    · exact h
  · exact h

theorem setEntryRule (p : List Byte) : (setEntryRule p s).1.NavigationAgrees := by
  unfold Machine.setEntryRule
  split
  · split
    · rename_i pinned group _ _ _
      split
      · exact h
      · rename_i i _
        exact h.contents agree (e := { s.dir.entries[i] with pinned := pinned, group := group })
          (fun _ => Directory.assign_entry _ _ _ _ _) rfl rfl rfl
    · exact h
  · exact h

/-- R19: an entry that is not HELD is retired. -/
theorem retireRule (p : List Byte) : (retireRule p s).1.NavigationAgrees := by
  unfold Machine.retireRule
  split
  · split
    · split
      · exact h
      · rename_i i checked
        obtain ⟨-, -, free, ready, -⟩ := State.checkEntry_ok checked
        have notLoading := Entry.visible_ne_loading (State.checkEntry_visible checked)
        refine h.withholding agree rfl fun k => .update (i := i) (fun _ => Directory.freeEntry_entry _ _ _) nofun
          (fun loading => absurd loading notLoading) fun _ _ held => ?_
        cases free.symm.trans held
    · exact h
  · exact h

/-! ### Loads (R24 to R46) -/

/-- R12, R25: the entry that a load is given was FREE, or READY and not HELD. -/
theorem openLoadRule (p : List Byte) : (openLoadRule p s).1.NavigationAgrees := by
  unfold Machine.openLoadRule
  split
  · exact h
  · split
    · exact h
    · split
      · exact h
      · split
        · exact h
        · rename_i chosen
          have given := Directory.chooseEntry_some chosen
          refine h.withholding agree rfl fun k => .update (fun _ => Directory.openEntry_entry _ _ _ _ _) nofun
            (fun loading => ?_) fun visible _ held => ?_
          · rcases given with ⟨-, free⟩ | ⟨-, queued, -⟩
            · cases free.symm.trans loading
            · cases loading.symm.trans ((agree.2.2.2.1.2 _).mp queued).1
          · rcases given with ⟨-, free⟩ | ⟨-, -, released⟩
            · exact absurd free (Entry.visible_ne_free visible)
            · cases released.symm.trans held

/-- R39, R46: a load is dropped. -/
theorem dropLoad {i : Fin 2} {r : LoadSlot} (filled : s.load.slots[i] = some r) :
    (s.dropLoad i r).NavigatesBut [r.key] := by
  have key := (agree.2.1.1 i r filled).2.2.1
  refine h.changes agree rfl fun k told => .otherKey (i := r.entry) (fun _ => Directory.freeEntry_entry _ _ _) ?_ nofun
  rw [key]
  exact fun same => told (List.mem_singleton.mpr (Option.some.inj same).symm)

theorem fatalStream {i : Fin 2} {r : LoadSlot} (filled : s.load.slots[i] = some r) (e : StreamError) (offset : Nat) :
    (s.fatalStream i r e offset).NavigationAgrees := by
  refine (State.navigatesBut_nil _).mp (State.NavigatesBut.loadEnded ?_)
  exact (h.dropLoad agree filled).congr (State.post_browsed _ _)

theorem cancelLoadRule (p : List Byte) : (cancelLoadRule p s).1.NavigationAgrees := by
  unfold Machine.cancelLoadRule
  split
  · split
    · exact h
    · split
      · exact h
      · rename_i filled
        exact (State.navigatesBut_nil _).mp (h.dropLoad agree filled).loadEnded
  · exact h

/-- R27: a stream's work changes its entry's marks alone. -/
theorem storeWork (i : Fin 2) (w : StreamWork) : (s.storeWork i w).NavigationAgrees :=
  h.withholding agree rfl (.contents (i := w.slot.entry) (fun _ => getElem_set_fin _ _ _ _) rfl rfl rfl)

theorem dataRule (p : List Byte) : (dataRule p s).1.NavigationAgrees := by
  unfold Machine.dataRule
  split
  · exact h
  · split
    · exact h
    · split
      · exact h
      · split
        · exact h
        · rename_i bytes _ i _ _ _ r filled
          split
          · exact h
          · have goes := decodeBytes_goes s.load.escape s.load.codes.toList bytes (s.streamWork r) 0
            split
            · exact h.storeWork agree _ _
            · rename_i w err offset e
              rw [e] at goes
              exact (h.storeWork agree i w).fatalStream ((State.EntriesKept.storeWork filled goes).agree agree)
                ((Decoder.setSlot_slot _ _ _ _).trans (if_pos rfl)) _ _

/-- R43, R44: a committed page is placed or replaces the visible entry of its key, and navigation is told. -/
theorem takeCommit {i : Fin 2} {r : LoadSlot} (filled : s.load.slots[i] = some r) :
    (s.takeCommit i r).1.NavigationAgrees := by
  have key := (agree.2.1.1 i r filled).2.2.1
  have loadKey : ∀ {k}, k ∉ [r.key] → s.dir.entries[r.entry].key ≠ some k := fun told same =>
    told (List.mem_singleton.mpr (Option.some.inj (key.symm.trans same)).symm)
  unfold State.takeCommit
  simp only
  split
  · refine State.NavigatesBut.keyCommitted (h.changes agree rfl fun k told => ?_)
    exact .otherKey (fun _ => Directory.placeNew_entry _ _ _ _) (loadKey told) (loadKey told)
  · rename_i v found
    have oldKey := (Directory.visibleEntry_some found).2
    have replaced : ∀ marks, ((s.setLoad (s.load.setSlot i none)).setDir
        (s.dir.replaceEntry r.entry v marks)).NavigatesBut [r.key] := fun marks => by
      refine h.changes agree rfl fun k told => ?_
      have other : ∀ j : Fin 48, s.dir.entries[j].key = some k ∨
          (s.dir.replaceEntry r.entry v marks).entries[j].key = some k →
          (s.dir.replaceEntry r.entry v marks).entries[j] = s.dir.entries[j] := fun j holds => by
        rw [Directory.replaceEntry_entry] at holds ⊢
        by_cases isOld : j = v
        · rw [if_pos isOld, isOld, oldKey] at holds
          exact absurd (holds.resolve_right nofun) (by rw [← key]; exact loadKey told)
        · rw [if_neg isOld] at holds ⊢
          by_cases isNew : j = r.entry
          · rw [if_pos isNew, isNew] at holds
            exact absurd (holds.elim id id) (loadKey told)
          · rw [if_neg isNew]
      refine ⟨fun j v hk => ?_, fun j l hk => ?_, fun j v hk hh => ?_⟩
      · rw [← other j (.inr hk)]; exact ⟨v, hk⟩
      · rw [State.setDir_dir, other j (.inl hk)]; exact ⟨l, hk⟩
      · rw [State.setDir_dir, other j (.inl hk)]; exact ⟨v, hk, hh⟩
    refine State.NavigatesBut.keyCommitted ?_
    split
    · exact (replaced _).congr (State.recompose_browsed _ _)
    · exact replaced _

theorem commitRule (p : List Byte) : (commitRule p s).1.NavigationAgrees := by
  unfold Machine.commitRule
  split
  · exact h
  · split
    · exact h
    · rename_i i cond _ _ r filled
      have given : (s.setLoad (s.load.setSlot i (some { r with
        condition := cond.getD r.condition }))).NavigationAgrees := h
      simp only
      split
      · exact given
      · exact given.takeCommit ((State.PagesKept.setCondition filled _).agree agree)
          ((Decoder.setSlot_slot _ _ _ _).trans (if_pos rfl))

/-! ### Sweeps (R86 to R94) -/

theorem sweepRule (p : List Byte) : (sweepRule p s).1.NavigationAgrees := by
  unfold Machine.sweepRule
  split
  · exact h
  · rename_i desc _
    split
    · exact h
    · have entry : ∀ j : Fin 48, ∃ b, (s.dir.holdMatching desc).entries[j] = { s.dir.entries[j] with held := b } ∧
          (s.dir.entries[j].held = true → b = true) := fun j => by
        rw [Directory.holdMatching_entry]
        split
        · exact ⟨true, rfl, fun _ => rfl⟩
        · exact ⟨_, rfl, id⟩
      refine h.withholding agree (by simp only [State.setSweep_nav, State.setDir_nav]) fun k =>
        ⟨fun j => ?_, fun j => ?_, fun j => ?_⟩
      all_goals
        obtain ⟨b, e, kept⟩ := entry j
        simp only [State.setSweep_dir, State.setDir_dir, e]
      · exact fun v hk => ⟨v, hk⟩
      · exact fun l hk => ⟨l, hk⟩
      · exact fun v hk hh => ⟨v, hk, kept hh⟩

/-- R94: every released key is told. -/
theorem abortSweepRule (p : List Byte) : (abortSweepRule p s).1.NavigationAgrees := by
  unfold Machine.abortSweepRule
  split
  · exact h
  · simp only
    refine State.NavigationAgrees.congr (State.NavigatesBut.tellReleased ?_) (State.post_browsed _ _)
    refine h.changes agree (State.setDir_nav _ _) fun k told => ?_
    have entry := Directory.releaseAll_entry s.dir
    refine ⟨fun j => ?_, fun j => ?_, fun j _ key held => absurd ?_ told⟩
    · rw [State.setDir_dir, entry]; exact fun v hk => ⟨v, hk⟩
    · rw [State.setDir_dir, entry]; exact fun l hk => ⟨l, hk⟩
    · exact List.mem_filterMap.mpr ⟨j, Directory.mem_heldEntries.mpr held, key⟩

/-- R88 to R90: an entry whose key navigation is told of changes in whatever way. -/
theorem visited {i : Fin 48} {d : Directory} {e : Entry} {k : Key} {told : List Key}
    (key : s.dir.entries[i].key = some k) (entries : ∀ j : Fin 48, d.entries[j] = if j = i then e else s.dir.entries[j])
    (after : ∀ k', e.key = some k' → k' ∈ k :: told) : (s.setDir d).NavigatesBut (k :: told) := by
  refine h.changes agree rfl fun k' untold => .otherKey entries (fun same => untold ?_) fun same => untold (after k' same)
  rw [key] at same
  rw [Option.some.inj same]
  exact List.mem_cons_self

theorem visitHeld (r : SweepRun) {i : Fin 48} {k : Key} (key : s.dir.entries[i].key = some k) :
    (s.visitHeld r i k).1.NavigationAgrees := by
  have released : ((s.setDir (s.dir.release i)).keyReleased k).NavigationAgrees :=
    (State.navigatesBut_nil _).mp (State.NavigatesBut.keyReleased (h.visited agree key
      (fun _ => Directory.setEntry_entry _ _ _ _) fun k' same => by
        rw [Option.some.inj (same.symm.trans key)]; exact List.mem_cons_self))
  unfold State.visitHeld
  simp only
  split
  · split
    · exact released
    · exact (State.navigatesBut_nil _).mp (State.NavigatesBut.keyReleased (h.visited agree key
        (fun _ => Directory.freeEntry_entry _ _ _) nofun))
  · split
    · exact released
    · have applied : ∀ told, r.descriptor.keyAfter k ∈ k :: told →
          (s.setDir (s.dir.visitApply i r.descriptor k)).NavigatesBut (k :: told) := fun told mem =>
        h.visited agree key (fun _ => Directory.visitApply_entry _ _ _ _ _) fun k' same => by
          rwa [← Option.some.inj (show some (r.descriptor.keyAfter k) = some k' from same)]
      generalize hu : (if ((s.dir.entries[i].marks.filter r.descriptor.removes).map Mark.line = []) then
        s.setDir (s.dir.visitApply i r.descriptor k) else (s.setDir (s.dir.visitApply i r.descriptor k)).tellLines i
          ((s.dir.entries[i].marks.filter r.descriptor.removes).map Mark.line)) = u
      have path : PinPath (s.setDir (s.dir.visitApply i r.descriptor k)) u := by
        rw [← hu]; split
        · exact PinPath.refl _
        · exact PinPath.tellLines _ _ _
      split
      · rename_i same
        refine (State.navigatesBut_nil _).mp (State.NavigatesBut.keyReleased ?_)
        exact (applied [] (by rw [same]; exact List.mem_cons_self)).congr path.browsed
      · refine ((applied [r.descriptor.keyAfter k] (by simp)).congr path.browsed).keyMoved ?_ fun shown => ?_
        · unfold SweepDescriptor.keyAfter; split <;> rfl
        · rw [path.nav, ← key]
          exact agree.2.2.2.2.1.2.1 i (beq_iff_eq.mp shown)

theorem visitEntry (r : SweepRun) (i : Fin 48) : (s.visitEntry r i).1.NavigationAgrees := by
  unfold State.visitEntry
  split
  · rename_i held
    split
    · rename_i key
      exact h.visitHeld agree r key
    · rename_i none
      exact absurd none ((agree.1 i).2.1 (Entry.visible_ne_free (agree.2.2.2.2.2 i held).1))
  · exact h

omit agree

theorem sweepAdvance (r : SweepRun) : (s.sweepAdvance r).NavigationAgrees := by
  unfold State.sweepAdvance
  split
  · exact h
  · exact h.post _

/-! ### Taking a command -/

/-- R181 to R183: a command that is taken by a rule, or refused. -/
theorem take {code : Byte} {b : CommandBody} {owner : List Byte → State → State × Reply}
    (rule : ∀ p, (owner p s).1.NavigationAgrees) (taken : s.take code b owner = .next t) : t.NavigationAgrees := by
  rcases State.take_cases owner taken with ⟨-, -, rfl⟩ | ⟨-, -, rfl⟩ | ⟨-, rfl⟩
  · exact (rule b.payload).congr rfl
  · exact h
  · exact h

theorem still {code : Byte} {b : CommandBody} {owner : List Byte → State → State × Reply}
    (rule : ∀ p, (owner p s).1.browsed = s.browsed) (taken : s.take code b owner = .next t) : t.NavigationAgrees :=
  h.take (fun p => h.congr (rule p)) taken

end State.NavigationAgrees

end Sys2Proof.Machine
end

section
/-! SUPPORT. Every row keeps navigation's condition true of the directory (R65, R66, R68). -/

namespace Sys2Proof.Machine

variable {s t : State}

/-- R21, R81: after a reset navigation is SETTLED and wants no page. -/
theorem State.NavigationAgrees.resetBlocks (s : State) (kind : ResetKind) : (s.resetBlocks kind).NavigationAgrees :=
  (State.navigatesBut_nil _).mp
    ⟨fun _ => rfl, fun waits => absurd rfl waits, nofun, nofun, fun _ _ _ => .of_settled _ _⟩

theorem execTimeout_navigates (h : s.NavigationAgrees) (agree : s.PagesAgree) {slot : Fin 2}
    (e : execTimeout slot s = .next t) : t.NavigationAgrees := by
  unfold execTimeout at e
  split at e
  · cases e; exact h
  · split at e <;> cases e
    · exact h
    · exact h.fatalStream agree (by assumption) _ _

theorem execSweepVisit_navigates (h : s.NavigationAgrees) (agree : s.PagesAgree) (e : execSweepVisit s = .next t) :
    t.NavigationAgrees := by
  unfold execSweepVisit at e
  split at e
  · cases e; exact h
  · split at e <;> cases e
    · exact h
    · exact (h.visitEntry agree _ _).sweepAdvance _

/-- Every row: a command is taken by its rule or refused, and an event makes its own changes. -/
theorem exec_navigates (h : s.NavigationAgrees) (agree : s.PagesAgree) {c : Instr} (e : exec c s = .next t) :
    t.NavigationAgrees := by
  cases c with
  | openLoad b => exact h.take (h.openLoadRule agree) e
  | data b => exact h.take (h.dataRule agree) e
  | commit b => exact h.take (h.commitRule agree) e
  | cancelLoad b => exact h.take (h.cancelLoadRule agree) e
  | setControlCodes b => exact h.still (fun p => setControlCodesRule_browsed p s) e
  | queryEntry b => exact h.still (fun p => by rw [queryEntryRule_state]) e
  | listEntries b => exact h.still (fun p => by rw [listEntriesRule_state]) e
  | readRow b => exact h.still (fun p => by rw [readRowRule_state]) e
  | readFaults b => exact h.still (fun _ => rfl) e
  | readStatus b => exact h.still (fun _ => rfl) e
  | patchCells b => exact h.take (h.patchCellsRule agree) e
  | retire b => exact h.take (h.retireRule agree) e
  | setEntry b => exact h.take (h.setEntryRule agree) e
  | addMark b => exact h.take (h.addMarkRule agree) e
  | dropMarks b => exact h.take (h.dropMarksRule agree) e
  | sweep b => exact h.take (h.sweepRule agree) e
  | abortSweep b => exact h.take (h.abortSweepRule agree) e
  | showKey b => exact h.take h.showRule e
  | declineMiss b => exact h.take (fun _ => h.declineMiss) e
  | setNavigation b => exact h.take h.setNavigationRule e
  | setStatus b => exact h.still (fun p => setStatusRule_browsed p s) e
  | setGlyphs b => exact h.still (fun _ => s.setGlyphs_browsed _) e
  | setCalendar b => exact h.still (fun p => setCalendarRule_browsed p s) e
  | setDrive b => exact h.still (fun p => setDriveRule_browsed p s) e
  | pauseDrive b => exact h.still (fun _ => s.pauseDrive_browsed) e
  | resumeDrive b => exact h.still (fun _ => s.resumeDrive_browsed) e
  | survey b => exact h.still (fun _ => s.surveyAll_browsed) e
  | clearFaults b => exact h.still (fun p => clearFaultsRule_browsed p s) e
  | setTouch b => exact h.still (fun p => setTouchRule_browsed p s) e
  | setNoticeMask b => exact h.still (fun p => setNoticeMaskRule_browsed p s) e
  | resetCommand b => exact h.take (fun _ => .resetBlocks s .command) e
  | powerOnReset => cases e; exact .resetBlocks s .powerOn
  | pinReset => cases e; exact .resetBlocks { s with resetPin := false } .pin
  | resetPinAsserted => cases e; exact h
  | writeCommand shown bytes => exact h.congr (execWriteCommand_browsed e)
  | readResponse clocked => exact h.congr (execReadResponse_browsed e)
  | readNotice clocked => exact h.congr (execReadNotice_browsed e)
  | statusOnlyTransaction code clocked =>
    exact outcome_of_ite (h.congr (State.setLink_browsed s _)) (h.congr (State.setLink_browsed s _)) e
  | unknownCommand code b => exact outcome_of_ite (h.congr (State.setLink_browsed s _)) h e
  | keySample prev next mark seek call => exact outcome_of_ite h (h.sample agree _) e
  | timeout slot => exact execTimeout_navigates h agree e
  | blinkTimerExpiry =>
    have turned : (s.setComp { s.comp with blinkOn := !s.comp.blinkOn }).NavigationAgrees := h
    exact outcome_of_ite h (turned.congr (PinPath.blinkChanged _).browsed) e
  | zoneReading zone count => exact outcome_of_ite h (h.congr (s.zoneTakes_browsed _ _)) e
  | holdTimerExpiry zone => exact outcome_of_ite h (h.congr (s.zoneTakes_browsed _ _)) e
  | refillUnitArrival =>
    have filled : ∀ d, (s.setDrive d).NavigationAgrees := fun _ => h
    exact outcome_of_ite h ((filled _).congr (PinPath.startIfCharged _).browsed) e
  | strokeStart => exact outcome_of_ite h (h.congr s.startIfCharged_browsed) e
  | strokeCompletion sensed => exact h.congr (execStrokeCompletion_browsed e)
  | supplyFall =>
    have low : ({ s with supplyPin := .low } : State).NavigationAgrees := h
    exact outcome_of_ite low (low.congr (State.supplyLost_browsed _)) e
  | supplyRise =>
    have ok : ({ s with supplyPin := .ok } : State).NavigationAgrees := h
    exact outcome_of_ite ok (ok.congr (State.supplyBack_browsed _)) e
  | sweepVisit => exact execSweepVisit_navigates h agree e

end Sys2Proof.Machine

section
open Sys2Proof Sys2Proof.Machine

/-- Settles O55: by the row taken; what changes the offer of a wanted key tells navigation of that key. -/
theorem stepKeepsNavigation : Obligations.StepKeepsNavigation := by
  intro s t agree h e
  unfold step at e
  split at e
  · cases e; exact h
  · rename_i rest _
    exact exec_navigates (s := { s with pending := rest }) h agree e

end
end

section
/-! SUPPORT. What navigation's operations leave of its fields: the debouncers of the patron keys (R63), the wanted page, and a
condition that is SETTLED. -/

namespace Sys2Proof.Machine

/-! ### The debouncers -/

section
variable (s : State)

/-- R67, R68: of navigation an evaluation changes the shown key, the condition and the miss record. -/
theorem State.evaluate_nav (cause : ShownCause) : (s.evaluate cause).nav = { s.nav with
    shownKey := (s.evaluate cause).nav.shownKey
    cond := (s.evaluate cause).nav.cond
    missKey := (s.evaluate cause).nav.missKey
    missLocked := (s.evaluate cause).nav.missLocked } := by
  cases hk : s.nav.wantedKey with
  | none => rw [State.evaluate.eq_def, hk]
  | some k =>
    cases found : s.dir.lookup k with
    | visible i =>
      rw [State.evaluate_visible hk found, (PinPath.tellCondition _ _).nav, State.post_nav, State.setNav_nav,
        (s.showEntry_path i).nav, State.setDir_nav]
    | held i => rw [State.evaluate_held hk found, (PinPath.tellCondition _ _).nav, State.setNav_nav]
    | loading j => rw [State.evaluate_loading hk found, (PinPath.tellCondition _ _).nav, State.setNav_nav]
    | absent =>
      rw [State.evaluate_absent hk found, (PinPath.tellCondition _ _).nav, State.captureMiss]
      split
      · rfl
      · rw [State.post_nav, State.setNav_nav, State.setNav_nav]

theorem State.evaluate_keys (cause : ShownCause) : (s.evaluate cause).nav.keys = s.nav.keys := by rw [State.evaluate_nav]

theorem State.pageStep_keys (next : BitVec 16 → BitVec 16) : (s.pageStep next).nav.keys = s.nav.keys := by
  unfold State.pageStep
  split
  · rfl
  · split_ifs
    · rfl
    · rfl
    · exact State.evaluate_keys _ _

theorem State.seek_keys : s.seek.nav.keys = s.nav.keys := by
  unfold State.seek
  split
  · rfl
  · split
    · rfl
    · split
      · exact State.evaluate_keys _ _
      · rfl

theorem State.markPress_keys : s.markPress.nav.keys = s.nav.keys := by
  unfold State.markPress
  split
  · rfl
  · simp only
    split
    · rfl
    · split
      · rfl
      · rw [(PinPath.tellLines _ _ _).nav, State.setDir_nav]

theorem State.pressKey_keys (k : PatronKey) : (s.pressKey k).nav.keys = s.nav.keys := by
  have posted : ∀ n, (s.post n).nav.keys = s.nav.keys := fun n => by rw [State.post_nav]
  cases k with
  | prev => exact (State.pageStep_keys _ _).trans (posted _)
  | next => exact (State.pageStep_keys _ _).trans (posted _)
  | mark => exact (State.markPress_keys _).trans (posted _)
  | seek => exact (State.seek_keys _).trans (posted _)
  | call => exact posted _

theorem State.pressKeys_keys (keys : List PatronKey) : (s.pressKeys keys).nav.keys = s.nav.keys := by
  induction keys generalizing s with
  | nil => rfl
  | cons k rest ih => exact (ih _).trans (s.pressKey_keys k)

end

/-! ### Which presses a sample registers (R63, R64) -/

section
variable {keys : Vector Debouncer 5} {down : Vector Bool 5}

theorem sampleKeys_sampled (keys : Vector Debouncer 5) (down : Vector Bool 5) :
    Sampled keys down (sampleKeys keys down) := fun _ => Vector.getElem_ofFn _

/-- The registered presses, by the one key that is said to register one. -/
theorem registeredPresses_only {who : Option (Fin 5)} (only : OnlyPresses keys down who) :
    registeredPresses keys down =
      ((List.finRange 5).filter fun j => decide (who = some j)).filterMap fun j => patronKeys[j.val]? := by
  refine congrArg (List.filterMap _) (List.filter_congr fun j _ => ?_)
  rw [Bool.eq_iff_iff, Debouncer.presses_iff, decide_eq_true_eq]
  exact only j

theorem registeredPresses_none (only : OnlyPresses keys down none) : registeredPresses keys down = [] :=
  registeredPresses_only only

theorem registeredPresses_call (only : OnlyPresses keys down (some 4)) : registeredPresses keys down = [.call] :=
  registeredPresses_only only

end

end Sys2Proof.Machine

section
open Sys2Proof Sys2Proof.Machine

/-- Settles O38: no press touches a debouncer, and the presses are read off what each debouncer registers. -/
theorem keySamplesAreDebounced : Obligations.KeySamplesAreDebounced := by
  intro s prev next mark seek call awake
  refine ⟨sampleKeys s.nav.keys #v[prev, next, mark, seek, call], s.sample #v[prev, next, mark, seek, call],
    sampleKeys_sampled _ _, if_neg (by simp [awake]), State.pressKeys_keys _ _, fun none => ?_, fun alone => ?_⟩
  · rw [State.sample, registeredPresses_none none]; rfl
  · rw [State.sample, registeredPresses_call alone]; rfl

end
end

section
/-! SUPPORT. DECLINE MISS (R73), and ABORT SWEEP with what navigation does when it is told of every released key (R76, R94). -/

namespace Sys2Proof.Machine

/-! ### DECLINE MISS -/

section
variable {s : State}

theorem State.declineMiss_unlocked (unlocked : s.nav.missLocked = false) : s.declineMiss = s :=
  if_neg (by rw [unlocked]; exact Bool.false_ne_true)

/-- R73: with navigation SETTLED the miss record is unlocked, and no more. -/
theorem State.declineMiss_settled (locked : s.nav.missLocked = true) (settled : s.nav.cond = .settled) :
    s.declineMiss = { s with nav := { s.nav with missLocked := false } } := by
  have rests : ¬ s.nav.waiting = true := fun waits => (Navigation.waiting_iff _).mp waits settled
  simp only [State.declineMiss, if_pos locked, if_neg rests]
  rfl

/-- R73: the navigation that DECLINE MISS brings back to the shown key. -/
def Navigation.declined (n : Navigation) : Navigation :=
  { n with
    missLocked := false
    document := (n.shownKey.map Key.doc).getD n.document
    wanted := n.shownKey.map Key.page
    cond := .settled }

theorem State.declineMiss_waiting (locked : s.nav.missLocked = true) (waits : s.nav.cond ≠ .settled) :
    s.declineMiss = ({ s with nav := s.nav.declined } : State).tellCondition s.nav.cond := by
  simp only [State.declineMiss, if_pos locked, if_pos ((Navigation.waiting_iff _).mpr waits)]
  rfl

end

/-! ### ABORT SWEEP -/

section
variable {s : State} {k : Key} {keys : List Key}

/-- R76: telling navigation of a released key does what R76 says, whatever it has to evaluate. -/
theorem State.keyReleased_tellsKey (s : State) (k : Key) : s.TellsKey k (s.keyReleased k) :=
  s.loadEnded_tellsKey k

/-- R76: nothing is evaluated for a key that no waiting navigation wants. -/
theorem State.keyReleased_unasked (unasked : ¬ (s.nav.cond ≠ .settled ∧ s.nav.wantedKey = some k)) :
    s.keyReleased k = s := by
  have told := s.keyReleased_tellsKey k
  rwa [State.TellsKey, if_neg unasked] at told

theorem State.keyReleased_asked (waits : s.nav.cond ≠ .settled) (wants : s.nav.wantedKey = some k) :
    s.keyReleased k = s.evaluate .nav :=
  if_pos ((Bool.and_eq_true _ _).mpr ⟨(Navigation.waiting_iff _).mpr waits, beq_iff_eq.mpr wants⟩)

theorem State.tellReleased_unasked (unasked : s.nav.cond = .settled ∨ ∀ k ∈ keys, s.nav.wantedKey ≠ some k) :
    s.tellReleased keys = s := by
  induction keys with
  | nil => rfl
  | cons k rest ih =>
    have none : s.keyReleased k = s := State.keyReleased_unasked fun ⟨waits, wants⟩ =>
      (unasked.resolve_left waits) k List.mem_cons_self wants
    rw [State.tellReleased, none]
    exact ih (unasked.imp_right fun others k' mem => others k' (List.mem_cons_of_mem _ mem))

/-- R67: an evaluation that finds the wanted key visible and not HELD leaves navigation SETTLED. -/
theorem State.evaluate_settles {v : Fin 48} (wants : s.nav.wantedKey = some k) (found : s.dir.lookup k = .visible v)
    (cause : ShownCause) : (s.evaluate cause).nav.cond = .settled := by
  rw [State.evaluate_visible wants found, (PinPath.tellCondition _ _).nav, State.post_nav, State.setNav_nav]

/-- R94: of all released keys navigation evaluates the wanted one, once. -/
theorem State.tellReleased_asked {v : Fin 48} (mem : k ∈ keys) (waits : s.nav.cond ≠ .settled)
    (wants : s.nav.wantedKey = some k) (found : s.dir.lookup k = .visible v) :
    s.tellReleased keys = s.evaluate .nav := by
  induction keys with
  | nil => cases mem
  | cons k' rest ih =>
    rw [State.tellReleased]
    by_cases same : k' = k
    · rw [same, State.keyReleased_asked waits wants]
      exact State.tellReleased_unasked (.inl (State.evaluate_settles wants found _))
    · rw [State.keyReleased_unasked fun ⟨_, wants'⟩ => same (Option.some.inj (wants'.symm.trans wants))]
      exact ih ((List.mem_cons.mp mem).resolve_left (Ne.symm same))

/-- R94: a lookup after every flag was cleared finds no entry HELD. -/
theorem Directory.lookup_released {d d' : Directory} {i : Fin 48}
    (entries : ∀ j : Fin 48, d'.entries[j] = { d.entries[j] with held := false })
    (visible : d.entries[i].visible = true) (key : d.entries[i].key = some k) : ∃ v, d'.lookup k = .visible v := by
  cases found : d'.visibleEntry k with
  | none =>
    have hidden := Directory.visibleEntry_none.mp found i
    rw [entries] at hidden
    exact absurd key (hidden visible)
  | some v => exact ⟨v, Directory.lookup_visible.mpr ⟨found, by rw [entries]⟩⟩

end

/-- R94: the released keys, of the entries that were HELD. -/
theorem Directory.mem_releasedKeys {d : Directory} {k : Key} :
    k ∈ (d.heldEntries.filterMap fun i => d.entries[i].key) ↔
      ∃ i : Fin 48, d.entries[i].held = true ∧ d.entries[i].key = some k := by
  simp only [List.mem_filterMap, Directory.mem_heldEntries]

/-- R94: the state with every HELD flag cleared. -/
def State.allReleased (s : State) : State :=
  { s with dir := { s.dir with entries := s.dir.entries.map fun e : Entry => { e with held := false } } }

theorem State.setDir_releaseAll (s : State) : s.setDir s.dir.releaseAll = s.allReleased := by
  have entries : s.dir.releaseAll.entries = s.dir.entries.map fun e : Entry => { e with held := false } :=
    Vector.ext fun j hj => by rw [Vector.getElem_map]; exact Directory.releaseAll_entry s.dir ⟨j, hj⟩
  have dir : s.dir.releaseAll = { s.dir with entries := s.dir.entries.map fun e : Entry => { e with held := false } } :=
    Directory.eq_of entries s.dir.releaseAll_frames s.dir.releaseAll_queue
  rw [dir]
  rfl

theorem abortSweepRule_running {s : State} {r : SweepRun} (p : List Byte) (running : s.sweep = some r) :
    abortSweepRule p s =
      (((s.allReleased.tellReleased (s.dir.heldEntries.filterMap fun i => s.dir.entries[i].key)).post
        (r.notice true)).setSweep none, ⟨.ok, [put8 s.dir.heldEntries.length]⟩) := by
  simp only [abortSweepRule, running, State.setDir_releaseAll]

end Sys2Proof.Machine

section
open Sys2Proof Sys2Proof.Machine

/-- Settles O37, by what navigation was before the decline. -/
theorem declineMissReturnsToTheShownPage : Obligations.DeclineMissReturnsToTheShownPage := by
  rintro s b tag rfl accepts
  have answers : exec (.declineMiss (frameOf tag [])) s =
      .next (s.declineMiss.answer 0x39 tag .ok (putNavigation s.declineMiss)) :=
    State.take_frameOf (owner := declineMissRule) accepts rfl rfl
  refine ⟨fun unlocked => ?_, fun locked => ?_⟩
  · rwa [State.declineMiss_unlocked unlocked] at answers
  by_cases settled : s.nav.cond = .settled
  · have eq := State.declineMiss_settled locked settled
    refine ⟨_, s.declineMiss, rfl, ?_, fun _ => ?_, fun waits => absurd settled waits, answers⟩
    · rw [if_pos settled, eq]; exact PinPath.refl _
    · rw [if_pos settled, eq]
  · have eq := State.declineMiss_waiting locked settled
    refine ⟨_, s.declineMiss, rfl, ?_, fun quiet => ?_, fun _ on => ?_, answers⟩
    · rw [if_neg settled, eq]; exact PinPath.tellCondition _ _
    · rw [if_neg settled, eq]
      exact State.tellCondition_none _ _ (.inr (quiet.resolve_left settled))
    · have told : s.declineMiss = ({ s with nav := s.nav.declined } : State).recompose statusLine :=
        eq.trans (if_pos ⟨fun same => settled (same.mpr rfl), on⟩)
      rw [if_neg settled, told]
      exact ⟨rfl, fun r hr => State.recompose_composed _ _ _ (mem_statusLine.mpr hr)⟩

/-- Settles O35: the wanted key is among the released ones or not. -/
theorem abortSweepReleasesAll : Obligations.AbortSweepReleasesAll := by
  rintro s b tag rfl accepts
  refine ⟨fun idle => ?_, ?_⟩
  · exact State.take_frameOf (owner := abortSweepRule) accepts rfl (by simp only [abortSweepRule, idle]; rfl)
  rintro r released running rfl
  refine ⟨s.allReleased.tellReleased (s.dir.heldEntries.filterMap fun i => s.dir.entries[i].key), fun none => ?_,
    fun i k agree waits held key wants => ?_, ?_⟩
  · refine State.tellReleased_unasked (none.imp_right fun unwanted k mem wants => ?_)
    obtain ⟨i, held, key⟩ := Directory.mem_releasedKeys.mp mem
    rcases unwanted i held with nothing | other
    · cases nothing.symm.trans wants
    · exact other (key.trans wants.symm)
  · have visible := (agree.2.2.2.2.2 i held).1
    obtain ⟨v, found⟩ := Directory.lookup_released (d' := s.allReleased.dir)
      (fun j => Vector.getElem_map _ _) visible key
    rw [State.tellReleased_asked (s := s.allReleased) (Directory.mem_releasedKeys.mpr ⟨i, held, key⟩) waits wants found]
    exact State.evaluate_evaluates _ _
  · rw [List.countP_eq_length_filter]
    exact State.take_frameOf accepts rfl (abortSweepRule_running [] running)

end
end

section
/-! SUPPORT. The page that a COMMIT places is shown in the same event when navigation waits for it (R67, R74). -/

namespace Sys2Proof.Machine

/-- R7: showing an entry takes it out of the queue, so it does not matter whether it was in it. -/
theorem Directory.showEntry_eq_of {d d' : Directory} {i : Fin 48} (entries : d.entries = d'.entries)
    (frames : d.frames = d'.frames) (queue : d.queue.filter (· ≠ i) = d'.queue.filter (· ≠ i))
    (hidden : d.entries[i].state ≠ .shown) : d.showEntry i = d'.showEntry i := by
  have left : ∀ e, (d.setEntry i e).leaveQueue i = (d'.setEntry i e).leaveQueue i := fun e =>
    Directory.eq_of (congrArg (·.set i e) entries) frames queue
  have shown : d.shownEntry = d'.shownEntry := by rw [Directory.shownEntry, Directory.shownEntry, entries]
  cases old : d.shownEntry with
  | none => rw [Directory.showEntry_first old, Directory.showEntry_first (shown ▸ old), ← entries, left]
  | some j =>
    have other := Directory.shownEntry_ne old hidden
    rw [Directory.showEntry_swap old other, Directory.showEntry_swap (shown ▸ old) other, ← entries, left]

/-- R3: the entry that comes to hold a key which no visible entry holds is the one that a lookup finds. -/
theorem Directory.visibleEntry_set {d d' : Directory} {k : Key} {i : Fin 48} {e : Entry}
    (entries : d'.entries = d.entries.set i e) (none : d.visibleEntry k = none) (visible : e.visible = true)
    (key : e.key = some k) : d'.visibleEntry k = some i := by
  have entry : ∀ j : Fin 48, d'.entries[j] = if j = i then e else d.entries[j] := fun j => by
    rw [entries]; exact getElem_set_fin _ _ _ _
  cases found : d'.visibleEntry k with
  | none =>
    have hidden := Directory.visibleEntry_none.mp found i
    rw [entry, if_pos rfl] at hidden
    exact absurd key (hidden visible)
  | some w =>
    by_cases same : w = i
    · rw [same]
    · have holds := Directory.visibleEntry_some found
      rw [entry, if_neg same] at holds
      exact absurd holds.2 (Directory.visibleEntry_none.mp none w holds.1)

/-- R36: at the end of a stream with no mark open no mark is added. -/
theorem LoadSlot.ended_closed {r : LoadSlot} (closed : r.openMark = none) (marks : List Mark) :
    r.ended marks = (marks, r.dropped) := by
  rw [LoadSlot.ended, LoadSlot.closing, closed]
  exact ite_self _

/-- R67: the evaluation that finds the wanted key READY and not HELD shows its entry. -/
theorem State.Evaluates.shows {s t : State} {cause : ShownCause} {k : Key} {v : Fin 48} (evaluates : s.Evaluates cause t)
    (wants : s.nav.wantedKey = some k) (found : s.dir.lookup k = .visible v) (ready : s.dir.entries[v].state = .ready) :
    PinPath (({ s with
      dir := s.dir.showEntry v
      nav := { s.nav with shownKey := some k, cond := .settled } } : State).post (.shown k cause)) t := by
  obtain ⟨visible, free⟩ := Directory.lookup_visible.mp found
  obtain ⟨u, told, path, -⟩ := evaluates k wants
  have eq := told.visible v visible free
  rw [if_neg (by rw [ready]; decide)] at eq
  exact eq ▸ path

/-- R74: navigation is told of the committed key that it waits for. -/
theorem State.TellsCommitted.evaluates {s t : State} {k : Key} (told : s.TellsCommitted k t)
    (waits : s.nav.cond ≠ .settled) (wants : s.nav.wantedKey = some k) :
    ({ s with nav := { s.nav with
      missLocked := s.nav.missLocked && decide (s.nav.missKey ≠ some k) } } : State).Evaluates .commit t := by
  obtain ⟨u, rfl, branch⟩ := told
  rwa [if_pos ⟨waits, wants⟩] at branch

end Sys2Proof.Machine

section
open Sys2Proof Sys2Proof.Machine

/-- Settles O19: O17 places the page, and the evaluation of its key finds it. -/
theorem commitShowsTheWantedPage : Obligations.CommitShowsTheWantedPage := by
  rintro s b tag i r rfl accepts agree slot closed absent cond waits wants
  obtain ⟨shaped, matched, -, queue, -, -⟩ := agree
  obtain ⟨loading, -, key, -⟩ := matched.1 i r slot
  have out : r.entry ∉ s.dir.queue := fun mem => by
    cases loading.symm.trans ((queue.2 r.entry).mp mem).1
  obtain ⟨u, told, answers⟩ := commitPlacesANewPage s _ tag 0 0 i r none (r.ended s.dir.entries[r.entry].marks) rfl
    accepts slot absent cond loading out rfl
  simp only [LoadSlot.ended_closed closed] at told
  have found := Directory.lookup_visible.mpr
    ⟨Directory.visibleEntry_set (d' := (s.placed i r s.dir.entries[r.entry].marks).dir) rfl absent rfl key,
      by simp only [State.placed, getElem_set_fin, if_pos]; exact ((shaped r.entry).2.2.1 loading).2⟩
  have path := (told.evaluates waits wants).shows wants found (by simp only [getElem_set_fin, if_pos])
  refine ⟨_, u, _, ?_, rfl, path, answers⟩
  refine Directory.showEntry_eq_of rfl rfl ?_ (by simp only [getElem_set_fin, if_pos]; decide)
  change (if s.dir.entries[r.entry].pinned then s.dir.queue else s.dir.queue ++ [r.entry]).filter (· ≠ r.entry) = _
  split
  · rfl
  · simp

end
end

section
/-! SUPPORT. The visit of a sweep: its actions on the entry in closed form, and each of its outcomes (R87 to R93). -/

namespace Sys2Proof.Machine

/-! ### The actions -/

section
variable (d : SweepDescriptor) (e : Entry) (k : Key)

theorem SweepDescriptor.keyAfter_eq : d.keyAfter k = ⟨d.moveDoc.getD k.doc, k.page⟩ := by
  unfold SweepDescriptor.keyAfter
  split
  · rename_i move; rw [move]; rfl
  · rename_i move; rw [move]; rfl

theorem SweepDescriptor.removes_eq (m : Mark) :
    d.removes m = decide (∃ c ∈ d.clearMarks, c.1.getLsbD m.cls.code = true ∧ c.2.getLsbD m.owner.code = true) := by
  unfold SweepDescriptor.removes
  split
  · rename_i clear; simp [clear, Mark.inSets]
  · rename_i clear; simp [clear]

/-- R89: the marks of an entry that a visit removes. -/
def SweepDescriptor.lost : List Mark := e.marks.filter d.removes

theorem SweepDescriptor.any_removes : e.marks.any d.removes = true ↔ d.lost e ≠ [] := by
  simp [SweepDescriptor.lost]

/-- R89: the entry that a visit leaves. -/
def SweepDescriptor.swept : Entry :=
  { e with
    held := false
    pinned := d.setPin.getD e.pinned
    group := d.setGroup.getD e.group
    marks := e.marks.filter fun m => !d.removes m
    key := some (d.keyAfter k)
    revision := if d.lost e = [] ∧ d.keyAfter k = k then e.revision else e.revision + 1 }

theorem SweepDescriptor.applyTo_swept :
    { d.applyTo e k with pinned := d.setPin.getD e.pinned } = d.swept e k := by
  have revision : (if e.marks.any d.removes || d.keyAfter k != k then e.revision + 1 else e.revision) =
      if d.lost e = [] ∧ d.keyAfter k = k then e.revision else e.revision + 1 := by
    by_cases kept : d.lost e = [] ∧ d.keyAfter k = k
    · rw [if_pos kept, if_neg]
      rw [Bool.or_eq_true, d.any_removes, bne_iff_ne]
      exact fun changed => changed.elim (· kept.1) (· kept.2)
    · rw [if_neg kept, if_pos]
      rwa [Bool.or_eq_true, d.any_removes, bne_iff_ne, ← not_and_or]
  unfold SweepDescriptor.applyTo SweepDescriptor.swept
  rw [revision]

/-- R93: a visit counts an entry unless its actions leave everything of it as it was. -/
theorem SweepDescriptor.changes_iff :
    d.changes e k = true ↔
      ¬ ((d.swept e k).pinned = e.pinned ∧ (d.swept e k).group = e.group ∧ d.lost e = [] ∧ d.keyAfter k = k) := by
  simp only [SweepDescriptor.changes, Bool.or_eq_true, bne_iff_ne, d.any_removes, SweepDescriptor.swept, not_and_or,
    ne_eq, or_assoc]

end

/-- R10: what else was changed of an entry does not matter to the queue, as long as its state stays. -/
theorem Directory.setPinned_queue_setEntry {d : Directory} {i : Fin 48} {e : Entry}
    (state : e.state = d.entries[i].state) (p : Bool) :
    ((d.setEntry i e).setPinned i p).queue = (d.setPinned i p).queue := by
  rw [Directory.setPinned_queue, Directory.setPinned_queue, Directory.setEntry_entry, if_pos rfl, state]
  rfl

/-- R10, R89: the queue after the actions, by whether the pinned value has changed. -/
theorem Directory.visitApply_moves {dir : Directory} (exact : dir.QueueExact) (i : Fin 48) (d : SweepDescriptor) (k : Key) :
    (dir.visitApply i d k).queue =
      if dir.entries[i].state = .ready ∧ d.setPin.getD dir.entries[i].pinned ≠ dir.entries[i].pinned then
        (if d.setPin.getD dir.entries[i].pinned then dir.queue.filter (· ≠ i) else dir.queue ++ [i])
      else dir.queue := by
  unfold Directory.visitApply
  cases d.setPin with
  | none => exact (if_neg fun changed => changed.2 rfl).symm
  | some p =>
    have alike : ((dir.setEntry i (d.applyTo dir.entries[i] k)).setPinned i p).queue = (dir.assign i p 0).queue := by
      rw [Directory.assign, Directory.setPinned_queue_setEntry (e := d.applyTo dir.entries[i] k) rfl,
        Directory.setPinned_queue_setEntry (e := { dir.entries[i] with group := 0 }) rfl]
    refine alike.trans ((Directory.assign_queue exact i p 0).trans ?_)
    simp only [Option.getD_some, ne_comm (a := p)]

theorem Directory.visitApply_eq {dir : Directory} (exact : dir.QueueExact) (i : Fin 48) (d : SweepDescriptor) (k : Key) :
    dir.visitApply i d k = { dir with
      entries := dir.entries.set i (d.swept dir.entries[i] k)
      queue :=
        if dir.entries[i].state = .ready ∧ d.setPin.getD dir.entries[i].pinned ≠ dir.entries[i].pinned then
          (if d.setPin.getD dir.entries[i].pinned then dir.queue.filter (· ≠ i) else dir.queue ++ [i])
        else dir.queue } := by
  refine Directory.eq_of (Vector.ext fun j hj => ?_) (dir.visitApply_frames i d k) (dir.visitApply_moves exact i d k)
  refine (dir.visitApply_entry i ⟨j, hj⟩ d k).trans ?_
  rw [d.applyTo_swept]
  exact (getElem_set_fin _ _ ⟨j, hj⟩ _).symm

/-! ### The lines of lost marks -/

/-- R89: the Compositor is told of the lines of lost marks, if there are any. -/
def State.tellLost (s : State) (i : Fin 48) (lost : List Mark) : State :=
  if lost.map Mark.line = [] then s else s.tellLines i (lost.map Mark.line)

section
variable {s : State} {i : Fin 48} {lost : List Mark}

theorem PinPath.tellLost (s : State) (i : Fin 48) (lost : List Mark) : PinPath s (s.tellLost i lost) := by
  unfold State.tellLost
  split
  · exact PinPath.refl _
  · exact PinPath.tellLines _ _ _

theorem State.tellLost_none (none : s.dir.entries[i].state ≠ .shown ∨ lost = []) : s.tellLost i lost = s := by
  unfold State.tellLost
  split
  · rfl
  · rename_i some
    exact State.tellLines_unshown _ (none.resolve_right (mt List.map_eq_nil_iff.mpr some))

theorem State.tellLost_shown (shown : s.dir.entries[i].state = .shown) (some : lost ≠ []) :
    s.tellLost i lost = s.recompose (lost.map Mark.line) :=
  (if_neg (mt List.map_eq_nil_iff.mp some)).trans (State.tellLines_shown _ shown)

end

/-! ### What navigation is told -/

/-- R89: navigation is told that a visit has released an entry, or moved it. -/
def State.tellSwept (s : State) (k new : Key) (shown : Bool) : State :=
  if new = k then s.keyReleased k else s.keyMoved k new shown

section
variable (s : State) {k new : Key} (shown : Bool)

theorem State.tellSwept_released (same : new = k) : s.TellsKey k (s.tellSwept k new shown) := by
  rw [State.tellSwept, if_pos same]; exact s.keyReleased_tellsKey k

theorem State.tellSwept_moved (moves : new ≠ k) : s.TellsMoved k new shown (s.tellSwept k new shown) := by
  rw [State.tellSwept, if_neg moves]; exact s.keyMoved_tellsMoved k new shown

end

/-! ### The outcomes -/

theorem State.keyTaken_iff {s : State} {k : Key} :
    s.keyTaken k = true ↔
      (s.dir.visibleEntry k).isSome = true ∨ ∃ j : Fin 2, ∃ q ∈ s.load.slots[j], q.key = k := by
  have slot : (s.load.slotOfKey k).isSome = true ↔ ∃ j : Fin 2, ∃ q ∈ s.load.slots[j], q.key = k := by
    rw [Option.isSome_iff_ne_none, ne_eq, Decoder.slotOfKey_none]
    push Not
    rfl
  rw [State.keyTaken, Bool.or_eq_true, slot]

section
variable {s : State} {r : SweepRun} {i : Fin 48} {k : Key}

theorem State.visitHeld_skips (retire : r.descriptor.retire = true) (shown : s.dir.entries[i].state = .shown) :
    s.visitHeld r i k =
      ((s.setDir (s.dir.release i)).keyReleased k, { r with skippedShown := r.skippedShown + 1 }) := by
  simp only [State.visitHeld, if_pos retire, if_pos shown]

theorem State.visitHeld_retires (retire : r.descriptor.retire = true) (unshown : s.dir.entries[i].state ≠ .shown) :
    s.visitHeld r i k = ((s.setDir (s.dir.freeEntry i)).keyReleased k, { r with changed := r.changed + 1 }) := by
  simp only [State.visitHeld, if_pos retire, if_neg unshown]

theorem State.visitHeld_collides (stays : r.descriptor.retire = false) (moves : r.descriptor.keyAfter k ≠ k)
    (taken : s.keyTaken (r.descriptor.keyAfter k) = true) :
    s.visitHeld r i k =
      ((s.setDir (s.dir.release i)).keyReleased k, { r with collisions := r.collisions + 1 }) := by
  simp only [State.visitHeld, stays, Bool.false_eq_true, if_false, if_pos (And.intro moves taken)]

/-- R89, R93: any other visit, by the entry `e` that it meets. -/
theorem State.visitHeld_applies (stays : r.descriptor.retire = false)
    (free : ¬ (r.descriptor.keyAfter k ≠ k ∧ s.keyTaken (r.descriptor.keyAfter k) = true)) :
    let e := s.dir.entries[i]
    let u := (s.setDir (s.dir.visitApply i r.descriptor k)).tellLost i (r.descriptor.lost e)
    s.visitHeld r i k =
      (u.tellSwept k (r.descriptor.keyAfter k) (decide (e.state = .shown)),
      if (r.descriptor.swept e k).pinned = e.pinned ∧ (r.descriptor.swept e k).group = e.group ∧
          r.descriptor.lost e = [] ∧ r.descriptor.keyAfter k = k then r
      else { r with changed := r.changed + 1 }) := by
  simp only [State.visitHeld, stays, Bool.false_eq_true, if_false, if_neg free, SweepDescriptor.changes_iff, ite_not,
    beq_eq_decide]
  rfl

/-! ### The step of the engine -/

/-- R87, R93: the progress moves on by one until it has passed entry 47. -/
theorem State.sweepAdvance_visited (s : State) (r : SweepRun) : s.sweepAdvance r = s.visited r := by
  unfold State.sweepAdvance State.visited
  by_cases more : r.progress.val < 47
  · rw [dif_pos more, dif_pos (by omega)]; rfl
  · rw [dif_neg more, dif_neg (by omega)]; rfl

theorem exec_sweepVisit (awake : s.resetPin = false) (running : s.sweep = some r) :
    exec .sweepVisit s =
      .next ((s.visitEntry r r.progress).1.visited (s.visitEntry r r.progress).2) := by
  change execSweepVisit s = _
  simp only [execSweepVisit, awake, Bool.false_eq_true, if_false, running, State.sweepAdvance_visited]

theorem State.visitEntry_passes (released : s.dir.entries[i].held = false) : s.visitEntry r i = (s, r) :=
  if_neg (by rw [released]; exact Bool.false_ne_true)

theorem State.visitEntry_held (held : s.dir.entries[i].held = true) (key : s.dir.entries[i].key = some k) :
    s.visitEntry r i = s.visitHeld r i k := by
  simp only [State.visitEntry, if_pos held, key]

end

end Sys2Proof.Machine

section
open Sys2Proof Sys2Proof.Machine

/-- Settles O34, by the outcomes of a visit, each a closed form of its own. -/
theorem sweepVisitsOneEntry : Obligations.SweepVisitsOneEntry := by
  intro s awake
  refine ⟨fun idle => ?_, ?_⟩
  · change execSweepVisit s = _
    simp only [execSweepVisit, awake, idle, Bool.false_eq_true, if_false]
  rintro r e k running rfl
  have visits := exec_sweepVisit awake running
  refine ⟨fun released => by rw [visits, State.visitEntry_passes released], fun held key agree => ?_⟩
  rw [State.visitEntry_held held key] at visits
  refine ⟨fun retire shown => ⟨_, State.keyReleased_tellsKey _ k, ?_⟩,
    fun retire ready => ⟨_, State.keyReleased_tellsKey _ k, ?_⟩, ?_⟩
  · rw [visits, State.visitHeld_skips retire shown]; rfl
  · rw [visits, State.visitHeld_retires retire (by rw [ready]; decide)]; rfl
  rintro moved hMoved stays
  obtain rfl : moved = r.descriptor.keyAfter k := hMoved.trans (r.descriptor.keyAfter_eq k).symm
  refine ⟨fun moves taken => ⟨_, State.keyReleased_tellsKey _ k, ?_⟩, ?_⟩
  · rw [visits, State.visitHeld_collides stays moves (State.keyTaken_iff.mpr taken)]; rfl
  intro free lost e' base hLost hEntry hBase
  simp only [← SweepDescriptor.removes_eq] at hLost hEntry
  obtain rfl : lost = r.descriptor.lost s.dir.entries[r.progress] := hLost
  obtain rfl : e' = r.descriptor.swept s.dir.entries[r.progress] k := hEntry
  have based : s.setDir (s.dir.visitApply r.progress r.descriptor k) = base := by
    rw [hBase, Directory.visitApply_eq agree.2.2.2.1]; rfl
  have state : base.dir.entries[r.progress].state = s.dir.entries[r.progress].state := by
    rw [hBase]; simp only [getElem_set_fin, if_pos]; rfl
  have clear : ¬ (r.descriptor.keyAfter k ≠ k ∧ s.keyTaken (r.descriptor.keyAfter k) = true) := by
    rintro ⟨moves, taken⟩
    obtain ⟨hidden, unloaded⟩ := free.resolve_left moves
    rcases State.keyTaken_iff.mp taken with visible | ⟨j, q, mem, same⟩
    · rw [hidden] at visible; cases visible
    · exact unloaded j q mem same
  have applies := State.visitHeld_applies (i := r.progress) stays clear
  simp only [based] at applies
  refine ⟨base.tellLost r.progress (r.descriptor.lost s.dir.entries[r.progress]), _, PinPath.tellLost _ _ _,
    fun quiet => State.tellLost_none (quiet.imp_left fun ready => by rw [state, ready]; decide),
    fun shown some => ?_, State.tellSwept_released _ _, State.tellSwept_moved _ _, by rw [visits, applies]⟩
  rw [State.tellLost_shown (state.trans shown) some]
  exact ⟨rfl, fun m mem row line => State.recompose_composed _ _ _ (line ▸ List.mem_map_of_mem mem)⟩

end
end

section
/-! SUPPORT. A sweep descriptor's payload reads back, and SWEEP freezes the entries that match it (R83 to R86). -/

namespace Sys2Proof.Machine

/-! ### The descriptor's payload (R84, R184) -/

/-- R184: the action byte, a bit for each action. -/
def actionByte (retire pin group marks move : Bool) : Byte :=
  put8 (retire.toNat + 2 * pin.toNat + 4 * group.toNat + 8 * marks.toNat + 16 * move.toNat)

theorem actionByte_bits (retire pin group marks move : Bool) :
    (actionByte retire pin group marks move).getLsbD 0 = retire ∧
      (actionByte retire pin group marks move).getLsbD 1 = pin ∧
      (actionByte retire pin group marks move).getLsbD 2 = group ∧
      (actionByte retire pin group marks move).getLsbD 3 = marks ∧
      (actionByte retire pin group marks move).getLsbD 4 = move := by
  revert retire pin group marks move; decide

theorem actionByte_lt (retire pin group marks move : Bool) : (actionByte retire pin group marks move).toNat < 32 := by
  revert retire pin group marks move; decide

/-- R84: the byte of RETIRE alone. -/
theorem actionByte_retire : actionByte true false false false false = 1 := rfl

theorem actionByte_ne_zero {pin group marks move : Bool}
    (any : pin = true ∨ group = true ∨ marks = true ∨ move = true) : actionByte false pin group marks move ≠ 0 := by
  revert pin group marks move; decide

/-- R184: the action byte of a descriptor. -/
def SweepDescriptor.actions (d : SweepDescriptor) : Byte :=
  actionByte d.retire d.setPin.isSome d.setGroup.isSome d.clearMarks.isSome d.moveDoc.isSome

theorem SweepDescriptor.bytes_eq (d : SweepDescriptor) :
    d.bytes = [putBool d.document.isSome, (d.document.getD 0).setWidth 8, d.first.setWidth 8, (d.first >>> 8).setWidth 8,
      d.last.setWidth 8, (d.last >>> 8).setWidth 8, d.mask.setWidth 8, d.v0.setWidth 8, d.v1.setWidth 8, d.actions,
      putBool (d.setPin.getD false), (d.setGroup.getD 0).setWidth 8, ((d.clearMarks.map Prod.fst).getD 0).setWidth 8,
      ((d.clearMarks.map Prod.snd).getD 0).setWidth 8, (d.moveDoc.getD 0).setWidth 8] := rfl

/-- R85: a valid descriptor passes the check of its actions. -/
theorem SweepDescriptor.actions_pass {d : SweepDescriptor} (valid : d.Valid) :
    d.actions.toNat < 32 ∧ d.actions ≠ 0 ∧ (d.actions.getLsbD 0 = true → d.actions = 1) := by
  obtain ⟨-, actions⟩ := valid
  refine ⟨actionByte_lt .., ?_⟩
  rw [SweepDescriptor.actions, (actionByte_bits ..).1]
  split at actions
  · rename_i retire
    obtain ⟨pin, group, marks, move⟩ := actions
    rw [retire, pin, group, marks, move]
    exact ⟨by decide, fun _ => actionByte_retire⟩
  · rename_i other
    simp only [← Option.isSome_iff_ne_none] at actions
    rw [(Bool.not_eq_true _).mp other]
    exact ⟨actionByte_ne_zero actions, fun retire => by cases retire⟩

/-- R184: the operand of a present action is read, and an absent one is taken as none. -/
theorem bind_operand {α β : Type} {p : Prop} [Decidable p] {x : Option (Option α)} {o : Option α}
    {rest : Option α → Option β} {y : β} (present : p ↔ o.isSome = true) (reads : ∀ a, o = some a → x = some (some a))
    (h : rest o = some y) : (if p then x.bind rest else (some none).bind rest) = some y := by
  cases o with
  | none => rwa [if_neg fun hp => by cases present.mp hp]
  | some a => rwa [if_pos (present.mpr rfl), reads a rfl]

/-- R84, R184: the payload of a valid sweep descriptor reads back. -/
theorem readDescriptor_bytes {d : SweepDescriptor} (valid : d.Valid) : readDescriptor d.bytes = some d := by
  obtain ⟨retire, pin, group, marks, move⟩ := actionByte_bits d.retire d.setPin.isSome d.setGroup.isSome
    d.clearMarks.isSome d.moveDoc.isSome
  obtain ⟨small, any, alone⟩ := SweepDescriptor.actions_pass valid
  rw [SweepDescriptor.bytes_eq]
  unfold readDescriptor
  refine Option.bind_eq_some_iff.mpr ⟨_, readBool_putBool _, ?_⟩
  refine Option.bind_eq_some_iff.mpr ⟨_, readNibble_setWidth _, ?_⟩
  refine Option.bind_eq_some_iff.mpr ⟨_, readNibble_setWidth _, ?_⟩
  refine Option.bind_eq_some_iff.mpr ⟨_, readNibble_setWidth _, ?_⟩
  refine Option.bind_eq_some_iff.mpr ⟨_, readNibble_setWidth _, ?_⟩
  refine bind_operand (Bool.coe_iff_coe.mpr pin) (fun a ha => by simp [ha]) ?_
  refine bind_operand (Bool.coe_iff_coe.mpr group) (fun a ha => by simp [ha]) ?_
  refine bind_operand (Bool.coe_iff_coe.mpr marks) (fun a ha => by simp [ha]) ?_
  refine bind_operand (Bool.coe_iff_coe.mpr move) (fun a ha => by simp [ha]) ?_
  have document : (if d.document.isSome = true then some (d.document.getD 0) else none) = d.document := by
    cases d.document <;> rfl
  have range : (word16 (d.first.setWidth 8) ((d.first >>> 8).setWidth 8)).toNat ≤
      (word16 (d.last.setWidth 8) ((d.last >>> 8).setWidth 8)).toNat := by
    rw [word16_put16, word16_put16]
    exact valid.1
  refine (if_pos ⟨small, any, alone, range⟩).trans ?_
  rw [document, word16_put16, word16_put16]
  exact congrArg (fun r => some { d with retire := r }) retire

/-! ### The entries that match (R83, R86) -/

/-- R83: what the Sweep Engine tests is the match of the criteria. -/
theorem SweepDescriptor.covers_iff {d : SweepDescriptor} {e : Entry} : d.covers e = true ↔ d.Takes e := by
  unfold SweepDescriptor.covers
  split
  · rename_i none
    simp [none]
  · rename_i k key
    simp [key, Entry.visible_iff, Option.all_eq_true, and_assoc]

/-- R82: the count of SWEEP. -/
theorem Directory.matching_eq (dir : Directory) (d : SweepDescriptor) :
    dir.matching d = (List.finRange 48).countP fun i => decide (d.Takes dir.entries[i]) := by
  rw [Directory.matching, List.countP_eq_length_filter]
  exact congrArg List.length (List.filter_congr fun i _ => Bool.eq_iff_iff.mpr (by simp [SweepDescriptor.covers_iff]))

/-- R86: nothing of the directory but its entries changes. -/
theorem Directory.holdMatching_eq (dir : Directory) (d : SweepDescriptor) :
    dir.holdMatching d = { dir with entries := (dir.holdMatching d).entries } :=
  Directory.eq_of rfl (dir.holdMatching_frames d) (dir.holdMatching_queue d)

/-- R86: the state in which SWEEP has frozen the matching entries. -/
def State.frozen (s : State) (d : SweepDescriptor) : State :=
  { s with
    dir := { s.dir with entries := (s.dir.holdMatching d).entries }
    sweep := some ⟨d, 0, s.dir.matching d, 0, 0, 0⟩ }

theorem State.setDir_holdMatching (s : State) (d : SweepDescriptor) :
    (s.setDir (s.dir.holdMatching d)).setSweep (some ⟨d, 0, s.dir.matching d, 0, 0, 0⟩) = s.frozen d := by
  rw [State.frozen, ← Directory.holdMatching_eq, State.setSweep, State.setDir]

theorem sweepRule_idle {s : State} {d : SweepDescriptor} (valid : d.Valid) (idle : s.sweep = none) :
    sweepRule d.bytes s = (s.frozen d, ⟨.accepted, [put8 (s.dir.matching d)]⟩) := by
  simp only [sweepRule, readDescriptor_bytes valid, idle, State.setDir_holdMatching]

/-- R85: a RUNNING engine refuses. -/
theorem sweepRule_running {s : State} {d : SweepDescriptor} (valid : d.Valid) (running : s.sweep ≠ none) :
    sweepRule d.bytes s = (s, .bare .sweepBusy) := by
  obtain ⟨r, running⟩ := Option.ne_none_iff_exists'.mp running
  simp only [sweepRule, readDescriptor_bytes valid, running]

end Sys2Proof.Machine

section
open Sys2Proof Sys2Proof.Machine

/-- Settles O33, by whether a sweep is RUNNING. -/
theorem sweepFreezesTheMatching : Obligations.SweepFreezesTheMatching := by
  rintro s b tag d rfl valid accepts
  refine ⟨fun idle => ⟨s.frozen d, s.dir.matching d, s.dir.matching_eq d, rfl, fun i => ?_,
    State.take_frameOf accepts rfl (sweepRule_idle valid idle)⟩, fun running => ?_⟩
  · simp only [← SweepDescriptor.covers_iff]
    exact Directory.holdMatching_entry s.dir d i
  · exact State.take_frameOf accepts rfl (sweepRule_running valid running)

end
end
section
/-! SUPPORT. What composing a line reads: of the directory the SHOWN entry, on that line; the settings of the status line on
line 31 alone; the blink phase and a zone's state where a CURSOR lies (R97, R99 to R104, R108, R109). -/

namespace Sys2Proof.Machine

/-! ### The directory -/

/-- On line `l` both directories show the same: the same entry, with its kind, its page, the line's marks and the line's
bytes. -/
structure Directory.ShowsAlike (d d' : Directory) (l : Fin 32) : Prop where
  state : ∀ i : Fin 48, d'.entries[i].state = .shown ↔ d.entries[i].state = .shown
  kind : ∀ i : Fin 48, d.entries[i].state = .shown → d'.entries[i].kind = d.entries[i].kind
  page : ∀ i : Fin 48, d.entries[i].state = .shown → d'.entries[i].key.map Key.page = d.entries[i].key.map Key.page
  marks : ∀ i : Fin 48, d.entries[i].state = .shown →
    d'.entries[i].marks.filter (·.line == l) = d.entries[i].marks.filter (·.line == l)
  frame : ∀ i : Fin 48, d.entries[i].state = .shown → ∀ o, o / 40 = l.val → d'.frameByte i o = d.frameByte i o

/-- What composing can read of an entry beside its frame. -/
def Entry.face (e : Entry) : EntryState × Kind × Option (BitVec 16) × List Mark :=
  (e.state, e.kind, e.key.map Key.page, e.marks)

section
variable {d d' : Directory} {l : Fin 32}

theorem Directory.frameByte_congr (frames : d'.frames = d.frames) (i : Fin 48) (o : Nat) :
    d'.frameByte i o = d.frameByte i o := by rw [Directory.frameByte, frames, Directory.frameByte]

theorem Directory.ShowsAlike.shown (h : d.ShowsAlike d' l) : d'.shownEntry = d.shownEntry := by
  have same : (fun i : Fin 48 => d'.entries[i].state == .shown) = fun i : Fin 48 => d.entries[i].state == .shown :=
    funext fun i => by rw [Bool.eq_iff_iff, beq_iff_eq, beq_iff_eq]; exact h.state i
  rw [Directory.shownEntry, same, Directory.shownEntry]

/-- No entry changes in what composing reads of it. -/
theorem Directory.ShowsAlike.of_faces (face : ∀ i : Fin 48, d'.entries[i].face = d.entries[i].face)
    (frames : d'.frames = d.frames) (l : Fin 32) : d.ShowsAlike d' l := by
  simp only [Entry.face, Prod.mk.injEq, forall_and] at face
  obtain ⟨state, kind, page, marks⟩ := face
  exact ⟨fun i => by rw [state], fun i _ => kind i, fun i _ => page i, fun i _ => by rw [marks],
    fun i _ o _ => Directory.frameByte_congr frames i o⟩

theorem Directory.ShowsAlike.refl (d : Directory) (l : Fin 32) : d.ShowsAlike d l := .of_faces (fun _ => rfl) rfl l

/-- Only entries that are not SHOWN, before or after, change. -/
theorem Directory.ShowsAlike.hidden (same : ∀ i : Fin 48, d'.entries[i] = d.entries[i] ∨
      (d.entries[i].state ≠ .shown ∧ d'.entries[i].state ≠ .shown))
    (frame : ∀ i : Fin 48, d.entries[i].state = .shown → ∀ o, o < 1280 → d'.frameByte i o = d.frameByte i o)
    (l : Fin 32) : d.ShowsAlike d' l := by
  have kept : ∀ i : Fin 48, d.entries[i].state = .shown → d'.entries[i] = d.entries[i] := fun i shown =>
    (same i).resolve_right fun h => h.1 shown
  refine ⟨fun i => ⟨fun shown => ?_, fun shown => by rw [kept i shown]; exact shown⟩, fun i shown => by rw [kept i shown],
    fun i shown => by rw [kept i shown], fun i shown => by rw [kept i shown], fun i shown o line => ?_⟩
  · rcases same i with e | e
    · rwa [e] at shown
    · exact absurd shown e.2
  · exact frame i shown o (by omega)

/-- An entry `i` that is not SHOWN, before or after, becomes another. -/
theorem Directory.ShowsAlike.hiddenEntry {i : Fin 48} {e : Entry}
    (entries : ∀ j : Fin 48, d'.entries[j] = if j = i then e else d.entries[j]) (before : d.entries[i].state ≠ .shown)
    (after : e.state ≠ .shown)
    (frame : ∀ j : Fin 48, j ≠ i → ∀ o, o < 1280 → d'.frameByte j o = d.frameByte j o) (l : Fin 32) :
    d.ShowsAlike d' l := by
  refine .hidden (fun j => ?_) (fun j shown => frame j fun same => before (same ▸ shown)) l
  rw [entries]
  by_cases same : j = i
  · rw [if_pos same, same]
    exact .inr ⟨before, after⟩
  · exact .inl (if_neg same)

/-- Entry `i` takes other contents, and of its marks those of line `l` stay. -/
theorem Directory.ShowsAlike.contents {i : Fin 48} {e : Entry}
    (entries : ∀ j : Fin 48, d'.entries[j] = if j = i then e else d.entries[j]) (state : e.state = d.entries[i].state)
    (kind : e.kind = d.entries[i].kind) (page : e.key.map Key.page = d.entries[i].key.map Key.page)
    (marks : d.entries[i].state = .shown → e.marks.filter (·.line == l) = d.entries[i].marks.filter (·.line == l))
    (frame : ∀ j : Fin 48, d.entries[j].state = .shown → ∀ o, o / 40 = l.val → d'.frameByte j o = d.frameByte j o) :
    d.ShowsAlike d' l := by
  refine ⟨fun j => ?_, fun j _ => ?_, fun j _ => ?_, fun j shown => ?_, frame⟩
  all_goals
    rw [entries]
    split
    · rename_i same
      subst same
      simp [*, -Fin.getElem_fin]
    · rfl

end

/-! ### Marks of one line -/

/-- A mark that covers a cell of a line lies on that line. -/
theorem Mark.onLine_and_covers (l : Fin 32) (c : Nat) :
    (fun m : Mark => m.line == l && m.covers l c) = fun m => m.covers l c :=
  funext fun m => by rw [Mark.covers, ← Bool.and_assoc, ← Bool.and_assoc, Bool.and_self]

theorem filter_covers (marks : List Mark) (l : Fin 32) (c : Nat) :
    marks.filter (·.covers l c) = (marks.filter (·.line == l)).filter (·.covers l c) := by
  rw [List.filter_filter, ← Mark.onLine_and_covers]
  simp only [Bool.and_comm]

theorem any_covers (marks : List Mark) (l : Fin 32) (c : Nat) :
    marks.any (·.covers l c) = (marks.filter (·.line == l)).any (·.covers l c) := by
  rw [List.any_filter, Mark.onLine_and_covers]

/-- A list from which only marks of other lines are taken has the marks of line `l` that it had. -/
theorem filter_line_filter {marks : List Mark} {keep : Mark → Bool} {l : Fin 32}
    (gone : ∀ m ∈ marks, keep m = false → m.line ≠ l) :
    (marks.filter keep).filter (·.line == l) = marks.filter (·.line == l) := by
  rw [List.filter_filter]
  refine List.filter_congr fun m mem => ?_
  cases h : keep m with
  | true => exact Bool.and_true _
  | false => rw [Bool.and_false, beq_eq_false_iff_ne.mpr (gone m mem h)]

theorem filter_line_append {marks : List Mark} {m : Mark} {l : Fin 32} (other : m.line ≠ l) :
    (marks ++ [m]).filter (·.line == l) = marks.filter (·.line == l) := by
  simp [other]

/-- R56: a toggle leaves the marks of the other lines alone. -/
theorem toggleMark_filter_line {marks toggled : List Mark} {m : Mark} {l : Fin 32} (h : toggleMark marks m = some toggled)
    (other : m.line ≠ l) : toggled.filter (·.line == l) = marks.filter (·.line == l) := by
  unfold toggleMark at h
  split_ifs at h <;> cases h
  · exact filter_line_filter fun x _ gone => by rwa [show x = m by simpa using gone]
  · exact filter_line_append other

/-! ### Lines -/

theorem State.lineSource_text_iff {s : State} {l : Fin 32} {i : Fin 48} : s.lineSource l = .text i ↔
    ¬ (l = 31 ∧ s.comp.statusOn = true) ∧ s.dir.shownEntry = some i ∧ s.dir.entries[i].kind = .text := by
  constructor
  · intro h
    have off : ¬ (l = 31 ∧ s.comp.statusOn = true) := fun on => by
      rw [State.lineSource_status on.1 on.2] at h
      cases h
    rw [State.lineSource_page off] at h
    split at h
    · cases h
    · rename_i j shown
      cases kind : s.dir.entries[j].kind with
      | text => rw [kind] at h; cases h; exact ⟨off, shown, kind⟩
      | raw => rw [kind] at h; cases h
  · rintro ⟨off, shown, kind⟩
    exact State.lineSource_text off shown kind

theorem State.lineSource_raw_shown {s : State} {l : Fin 32} {i : Fin 48} (h : s.lineSource l = .raw i) :
    s.dir.shownEntry = some i := by
  have off : ¬ (l = 31 ∧ s.comp.statusOn = true) := fun on => by
    rw [State.lineSource_status on.1 on.2] at h
    cases h
  rw [State.lineSource_page off] at h
  split at h
  · cases h
  · rename_i j shown
    cases kind : s.dir.entries[j].kind with
    | text => rw [kind] at h; cases h
    | raw => rw [kind] at h; cases h; exact shown

theorem State.lineSource_status_iff {s : State} {l : Fin 32} :
    s.lineSource l = .status ↔ l = 31 ∧ s.comp.statusOn = true := by
  refine ⟨fun h => ?_, fun h => State.lineSource_status h.1 h.2⟩
  by_contra off
  rw [State.lineSource_page off] at h
  split at h
  · cases h
  · split at h <;> cases h

/-- R60: only a CURSOR's dots hang on the blink phase and on the zone. -/
theorem markDots_congr {blink blink' steady steady' : Bool} {cls : MarkClass}
    (h : cls = .cursor → (blink' || steady') = (blink || steady)) :
    markDots blink' steady' cls = markDots blink steady cls := by
  cases cls with
  | cursor => simp only [markDots, h rfl]
  | bookmark | highlight | find => rfl

theorem State.CursorIn.of_covers {s : State} {l : Fin 32} {i : Fin 48} {m : Mark} {c : Nat}
    (source : s.lineSource l = .text i) (mem : m ∈ s.dir.entries[i].marks) (cursor : m.cls = .cursor) (inLine : c < 40)
    (covers : m.covers l c = true) : s.CursorIn l (zoneOfCell l c) := by
  obtain ⟨off, shown, kind⟩ := State.lineSource_text_iff.mp source
  simp only [Mark.covers, Bool.and_eq_true, beq_iff_eq, decide_eq_true_eq] at covers
  obtain ⟨⟨line, first⟩, last⟩ := covers
  exact ⟨off, i, shown, kind, m, mem, cursor, line, c, inLine, first, last, rfl⟩

/-- Composing line `l` gives the same in both states. -/
structure State.DrawsAlike (s t : State) (l : Fin 32) : Prop where
  rows : ∀ r : Fin 128, lineOfRow r = l → t.composeRow r = s.composeRow r
  markPins : t.composeMarkPins l = s.composeMarkPins l

section
variable {s t : State} {l : Fin 32}

theorem State.lineSource_congr (dir : s.dir.ShowsAlike t.dir l) (on : l = 31 → t.comp.statusOn = s.comp.statusOn) :
    t.lineSource l = s.lineSource l := by
  by_cases h : l = 31 ∧ s.comp.statusOn = true
  · rw [State.lineSource_status h.1 h.2, State.lineSource_status h.1 ((on h.1).trans h.2)]
  · rw [State.lineSource_page h, State.lineSource_page fun h' => h ⟨h'.1, (on h'.1).symm.trans h'.2⟩, dir.shown]
    cases shown : s.dir.shownEntry with
    | none => rfl
    | some i => simp only [dir.kind i (Directory.shownEntry_some shown)]

/-- R102 to R104: the status line is composed from its settings, the shown page, and whether navigation is SETTLED. -/
theorem State.statusCells_congr (page : t.dir.shownPage = s.dir.shownPage)
    (text : t.comp.statusText = s.comp.statusText) (glyphs : t.comp.glyphs = s.comp.glyphs)
    (cond : t.nav.cond = .settled ↔ s.nav.cond = .settled) : t.statusCells = s.statusCells := by
  simp only [State.statusCells, State.indicator, page, text, glyphs, cond]

/-- R59, R60, R100: a cell is composed from its byte and the dots of the marks that cover it. -/
theorem State.textCell_congr {i : Fin 48} {c : Nat}
    (byte : t.dir.frameByte i (40 * l.val + c) = s.dir.frameByte i (40 * l.val + c))
    (marks : t.dir.entries[i].marks.filter (·.line == l) = s.dir.entries[i].marks.filter (·.line == l))
    (dots : ∀ m ∈ s.dir.entries[i].marks, m.covers l c = true →
      markDots t.comp.blinkOn (t.zoneSteady (zoneOfCell l c)) m.cls =
        markDots s.comp.blinkOn (s.zoneSteady (zoneOfCell l c)) m.cls) : t.textCell i l c = s.textCell i l c := by
  unfold State.textCell
  simp only [Config.cellsPerLine]
  rw [byte, filter_covers, marks, ← filter_covers]
  refine List.foldl_ext _ _ _ fun b m mem => ?_
  obtain ⟨mem, covers⟩ := List.mem_filter.mp mem
  rw [dots m mem covers]

/-- R97: what a line is composed from. -/
theorem State.DrawsAlike.of_inputs (dir : s.dir.ShowsAlike t.dir l) (on : l = 31 → t.comp.statusOn = s.comp.statusOn)
    (status : l = 31 → s.comp.statusOn = true → t.comp.statusText = s.comp.statusText ∧ t.comp.glyphs = s.comp.glyphs ∧
      (t.nav.cond = .settled ↔ s.nav.cond = .settled))
    (cursors : ∀ z, s.CursorIn l z → (t.comp.blinkOn || t.zoneSteady z) = (s.comp.blinkOn || s.zoneSteady z)) :
    s.DrawsAlike t l := by
  have source := State.lineSource_congr dir on
  have page : t.dir.shownPage = s.dir.shownPage := by
    rw [Directory.shownPage, dir.shown, Directory.shownPage]
    cases shown : s.dir.shownEntry with
    | none => rfl
    | some i => exact dir.page i (Directory.shownEntry_some shown)
  have shownText : ∀ i, s.lineSource l = .text i → s.dir.entries[i].state = .shown := fun i h =>
    Directory.shownEntry_some (State.lineSource_text_iff.mp h).2.1
  refine ⟨fun r row => ?_, ?_⟩
  · subst row
    rw [State.composeRow, source, State.composeRow]
    cases from' : s.lineSource (lineOfRow r) with
    | status =>
      obtain ⟨bottom, isOn⟩ := State.lineSource_status_iff.mp from'
      obtain ⟨text, glyphs, cond⟩ := status bottom isOn
      simp only [State.statusCells_congr page text glyphs cond]
    | blank => rfl
    | text i =>
      have shown := shownText i from'
      have cells : t.textCells i (lineOfRow r) = s.textCells i (lineOfRow r) := List.map_congr_left fun c mem => by
        have inLine : c < 40 := List.mem_range.mp mem
        exact State.textCell_congr (dir.frame i shown _ (by omega)) (dir.marks i shown) fun m mark covers =>
          markDots_congr fun cursor => cursors _ (.of_covers from' mark cursor inLine covers)
      simp only [cells]
    | raw i =>
      have shown := Directory.shownEntry_some (State.lineSource_raw_shown from')
      have bytes : ∀ j ∈ List.range 10, t.dir.frameByte i (10 * r.val + j) = s.dir.frameByte i (10 * r.val + j) :=
        fun j mem => dir.frame i shown _ (by
          have := List.mem_range.mp mem
          simp only [lineOfRow]
          omega)
      simp only [State.rawRow, List.map_congr_left bytes]
  · rw [State.composeMarkPins, source, State.composeMarkPins]
    cases from' : s.lineSource l with
    | status => rfl
    | blank => rfl
    | raw i => rfl
    | text i =>
      have covered : ∀ c, t.dir.entries[i].marks.any (·.covers l c) = s.dir.entries[i].marks.any (·.covers l c) := fun c => by
        rw [any_covers, dir.marks i (shownText i from'), ← any_covers]
      simp only [covered]

end

end Sys2Proof.Machine
end

section
/-! SUPPORT. Which lines a change of blink phase and a change of a zone's state compose again (R108, R109), and what a
recomposition leaves: the lines that stand as composing them gives (R97). -/

namespace Sys2Proof.Machine

/-! ### The lines of a CURSOR (R108, R109) -/

section
variable {s : State} {l : Fin 32} {z : Fin 16}

theorem zoneAt_eq_iff {b : Fin 8} {h : Fin 2} : zoneAt b h = z ↔ b = bandOfZone z ∧ h = halfOfZone z := by
  simp only [zoneAt, bandOfZone, halfOfZone, Fin.ext_iff]
  omega

theorem State.rendersMarks_iff : s.rendersMarks l = true ↔ ∃ i, s.lineSource l = .text i := by
  unfold State.rendersMarks
  cases s.lineSource l <;> simp

/-- R108, R109: a line that renders marks holds a CURSOR cell in a half of its band. -/
theorem State.cursorInHalf_iff {h : Fin 2} :
    (s.rendersMarks l = true ∧ s.cursorInHalf l h = true) ↔ s.CursorIn l (zoneAt (bandOfLine l) h) := by
  have half : ∀ c, halfOfCell c = h ↔ zoneOfCell l c = zoneAt (bandOfLine l) h := fun c => by
    simp only [zoneOfCell, zoneAt, Fin.ext_iff]
    omega
  simp only [State.rendersMarks_iff, State.cursorInHalf, List.any_eq_true, Bool.and_eq_true, beq_iff_eq, List.mem_range,
    Config.cellsPerLine, half]
  constructor
  · rintro ⟨⟨i, source⟩, m, mem, cursor, c, inLine, covers, zone⟩
    rw [Directory.shownMarks, (State.lineSource_text_iff.mp source).2.1] at mem
    exact zone ▸ .of_covers source mem cursor inLine covers
  · rintro ⟨off, i, shown, kind, m, mem, cursor, line, c, inLine, first, last, zone⟩
    refine ⟨⟨i, State.lineSource_text off shown kind⟩, m, ?_, cursor, c, inLine, ?_, zone⟩
    · rw [Directory.shownMarks, shown]; exact mem
    · simp [Mark.covers, line, first, last]

theorem State.CursorIn.zone (h : s.CursorIn l z) : zoneAt (bandOfLine l) (halfOfZone z) = z := by
  obtain ⟨-, -, -, -, -, -, -, -, c, -, -, -, zone⟩ := h
  exact zoneAt_eq_iff.mpr ⟨(zoneAt_eq_iff.mp zone).1, rfl⟩

/-- R109: the lines that a change of a zone's state composes again. -/
theorem State.mem_zoneLines : l ∈ s.zoneLines z ↔ s.CursorIn l z := by
  simp only [State.zoneLines, List.mem_filter, List.mem_finRange, true_and, Bool.and_eq_true, beq_iff_eq, and_assoc,
    State.cursorInHalf_iff]
  constructor
  · rintro ⟨band, cursor⟩
    rwa [zoneAt_eq_iff.mpr ⟨band, rfl⟩] at cursor
  · intro cursor
    exact ⟨(zoneAt_eq_iff.mp cursor.zone).1, by rwa [cursor.zone]⟩

/-- R108: the lines that a change of blink phase composes again. -/
theorem State.mem_blinkLines : l ∈ s.blinkLines ↔ s.Blinks l := by
  simp only [State.blinkLines, List.mem_filter, List.mem_finRange, true_and, Bool.and_eq_true, List.any_eq_true,
    State.zoneSteady, Bool.not_eq_true', bne_eq_false_iff_eq]
  constructor
  · rintro ⟨renders, h, cursor, clear⟩
    exact ⟨_, State.cursorInHalf_iff.mp ⟨renders, cursor⟩, clear⟩
  · rintro ⟨z, cursor, clear⟩
    have zone := cursor.zone
    rw [← zone] at cursor clear
    obtain ⟨renders, half⟩ := State.cursorInHalf_iff.mpr cursor
    exact ⟨renders, _, half, clear⟩

end

/-! ### Recomposition (R97, R109) -/

section
variable {s t : State} {l : Fin 32} {lines : List (Fin 32)}

/-- A recomposition asks of a list of lines only which lines are in it. -/
theorem State.recompose_congr {lines' : List (Fin 32)} (same : ∀ l, l ∈ lines ↔ l ∈ lines') :
    s.recompose lines = s.recompose lines' := by
  have target : s.newTarget lines = s.newTarget lines' := by simp only [State.newTarget, List.contains_eq_mem, same]
  have markPins : s.newMarkPins lines = s.newMarkPins lines' := by
    simp only [State.newMarkPins, List.contains_eq_mem, same]
  simp only [State.recompose, target, markPins]

/-- R97: line `l` stands in the target image and the mark pins as composing it gives. -/
structure State.Drawn (s : State) (l : Fin 32) : Prop where
  target : ∀ r : Fin 128, lineOfRow r = l → s.comp.target[r] = s.composeRow r
  markPins : s.comp.markPins[l] = s.composeMarkPins l

theorem State.imageComposed_iff : s.ImageComposed ↔ ∀ l, s.Drawn l :=
  ⟨fun h l => ⟨fun r _ => h.1 r, h.2 l⟩, fun h => ⟨fun r => (h _).target r rfl, fun l => (h l).markPins⟩⟩

/-- A line stays as it was drawn when composing it still gives the same. -/
theorem State.Drawn.step (h : s.Drawn l) (same : s.DrawsAlike t l) (target : t.comp.target = s.comp.target)
    (markPins : t.comp.markPins = s.comp.markPins) : t.Drawn l :=
  ⟨fun r row => by rw [target, same.rows r row]; exact h.target r row, by rw [markPins, same.markPins]; exact h.markPins⟩

/-- The pin path changes nothing that composing reads. -/
theorem PinPath.drawsAlike (h : PinPath s t) (l : Fin 32) : s.DrawsAlike t l := by
  refine .of_inputs (by rw [h.dir]; exact .refl _ _) (fun _ => by rw [h.comp]) (fun _ _ => ?_) fun z _ => ?_
  · rw [h.comp, h.nav]
    exact ⟨rfl, rfl, Iff.rfl⟩
  · rw [State.zoneSteady, h.comp, h.zones, State.zoneSteady]

theorem State.recompose_markPins (s : State) (lines : List (Fin 32)) (l : Fin 32) :
    (s.recompose lines).comp.markPins[l] = if l ∈ lines then s.composeMarkPins l else s.comp.markPins[l] := by
  rw [State.recompose_comp]
  simp [State.newMarkPins]

/-- R97, R109: after a recomposition its lines are drawn, and so are those that were. -/
theorem State.recompose_drawn (h : l ∉ lines → s.Drawn l) : (s.recompose lines).Drawn l := by
  have alike := (PinPath.recompose s lines).drawsAlike l
  refine ⟨fun r row => ?_, ?_⟩
  · rw [State.recompose_target, alike.rows r row, row]
    split
    · rfl
    · rename_i other; exact (h other).target r row
  · rw [State.recompose_markPins, alike.markPins]
    split
    · rfl
    · rename_i other; exact (h other).markPins

/-- R109: a recomposition that reaches every line that is not drawn leaves the whole image composed. -/
theorem State.recompose_image (h : ∀ l, l ∉ lines → s.Drawn l) : (s.recompose lines).ImageComposed :=
  State.imageComposed_iff.mpr fun l => State.recompose_drawn (h l)

theorem State.recompose_allLines (s : State) : (s.recompose allLines).ImageComposed :=
  State.recompose_image fun l other => absurd (mem_allLines l) other

/-- R18, R53, R55, R89: an entry's lines are told. -/
theorem State.tellLines_image {i : Fin 48} (h : ∀ l, (s.dir.entries[i].state = .shown → l ∉ lines) → s.Drawn l) :
    (s.tellLines i lines).ImageComposed := by
  unfold State.tellLines
  split
  · exact State.recompose_image fun l other => h l fun _ => other
  · rename_i hidden; exact State.imageComposed_iff.mpr fun l => h l fun shown => absurd shown hidden

end

/-! ### The image and what it is composed from -/

/-- What the target image is composed from, and the image itself. -/
def State.picture (s : State) : Directory × NavCondition × Compositor × Vector ZoneState 16 :=
  (s.dir, s.nav.cond, s.comp, Vector.ofFn fun z => s.touch.zones[z].state)

section
variable {s t : State} {l : Fin 32}

theorem State.picture_eq (dir : t.dir = s.dir) (cond : t.nav.cond = s.nav.cond) (comp : t.comp = s.comp)
    (zones : ∀ z : Fin 16, t.touch.zones[z].state = s.touch.zones[z].state) : t.picture = s.picture := by
  simp only [State.picture, dir, cond, comp, zones]

theorem State.Drawn.congr (h : s.Drawn l) (same : t.picture = s.picture) : t.Drawn l := by
  simp only [State.picture, Prod.mk.injEq] at same
  obtain ⟨dir, cond, comp, zones⟩ := same
  have zone : ∀ z : Fin 16, t.touch.zones[z].state = s.touch.zones[z].state := fun z => by
    simpa using congrArg (fun v : Vector ZoneState 16 => v[z]) zones
  refine h.step (.of_inputs (by rw [dir]; exact .refl _ _) (fun _ => by rw [comp]) (fun _ _ => ?_) fun z _ => ?_)
    (by rw [comp]) (by rw [comp])
  · rw [comp, cond]
    exact ⟨rfl, rfl, Iff.rfl⟩
  · rw [comp, State.zoneSteady, zone, State.zoneSteady]

theorem State.ImageComposed.congr (h : s.ImageComposed) (same : t.picture = s.picture) : t.ImageComposed :=
  State.imageComposed_iff.mpr fun l => (State.imageComposed_iff.mp h l).congr same

/-- A line is drawn after the directory has changed where it does not show. -/
theorem State.ImageComposed.drawn_setDir (h : s.ImageComposed) {d : Directory} (alike : s.dir.ShowsAlike d l) :
    (s.setDir d).Drawn l :=
  (State.imageComposed_iff.mp h l).step
    (.of_inputs alike (fun _ => rfl) (fun _ _ => ⟨rfl, rfl, Iff.rfl⟩) fun _ _ => rfl) rfl rfl

theorem State.ImageComposed.setDir (h : s.ImageComposed) {d : Directory} (alike : ∀ l, s.dir.ShowsAlike d l) :
    (s.setDir d).ImageComposed := State.imageComposed_iff.mpr fun l => h.drawn_setDir (alike l)

end

end Sys2Proof.Machine
end

section
/-! SUPPORT. The drive, the calendar, the pin field, the link and the loads' slots leave the image, and what it is composed
from, alone. -/

namespace Sys2Proof.Machine

theorem State.comp_offDrive : OffDrive State.comp :=
  ⟨fun _ _ => rfl, fun _ _ => rfl, fun _ _ => rfl, fun _ _ => State.post_comp _ _⟩

/-- The pin path without a recomposition. -/
theorem PinPath.picture {s t : State} (h : PinPath s t) (comp : t.comp = s.comp) : t.picture = s.picture :=
  State.picture_eq h.dir (by rw [h.nav]) comp fun z => by rw [h.zones]

section
variable (s : State)

@[simp] theorem State.setLink_picture (x : Link) : (s.setLink x).picture = s.picture := rfl
@[simp] theorem State.setLoad_picture (x : Decoder) : (s.setLoad x).picture = s.picture := rfl
@[simp] theorem State.setSweep_picture (x : Option SweepRun) : (s.setSweep x).picture = s.picture := rfl
@[simp] theorem State.setPins_picture (x : PinField) : (s.setPins x).picture = s.picture := rfl
@[simp] theorem State.setDrive_picture (x : Drive) : (s.setDrive x).picture = s.picture := rfl
@[simp] theorem State.setCal_picture (x : Calendar) : (s.setCal x).picture = s.picture := rfl
@[simp] theorem State.post_picture (n : Notice) : (s.post n).picture = s.picture :=
  State.picture_eq (by simp) (by simp) (by simp) fun z => by rw [State.post_touch]

/-! ### The pin path -/

@[simp] theorem State.reform_picture (rows : Fin 128 → Bool) : (s.reform rows).picture = s.picture :=
  (PinPath.reform s rows).picture (State.reform_comp s rows)
@[simp] theorem State.wake_picture : s.wake.picture = s.picture := (PinPath.wake s).picture (State.wake_comp s)
@[simp] theorem State.requestSurvey_picture : s.requestSurvey.picture = s.picture :=
  (PinPath.requestSurvey s).picture (State.comp_offDrive.requestSurvey s)
@[simp] theorem State.startIfCharged_picture : s.startIfCharged.picture = s.picture :=
  (PinPath.startIfCharged s).picture (State.comp_offDrive.startIfCharged s)

/-- R159: a scheduler that enters DRIVING is at work from there on. -/
@[simp] theorem State.driveOn_picture : s.driveOn.picture = s.picture :=
  (PinPath.runCalendar _ (s.setCal { s.cal with sched := .driving, quiet := [] }) rfl).picture
    (State.comp_offDrive.runCalendar _ _)

theorem State.takeUp_picture {announce : State → State} (announced : ∀ u, (announce u).picture = u.picture) :
    (s.takeUp announce).picture = s.picture := by
  unfold State.takeUp
  split
  · rw [State.requestSurvey_picture, announced, State.setCal_picture]
  · rw [State.driveOn_picture, announced, State.setCal_picture]

/-! ### The drive's and the pin field's own rows -/

theorem State.pauseDrive_picture : s.pauseDrive.picture = s.picture := by
  unfold State.pauseDrive
  cases s.cal.sched with
  | surveying | driving => simp only; split <;> rfl
  | idle | paused | supplyLow => rfl

theorem State.resumeDrive_picture : s.resumeDrive.picture = s.picture := by
  unfold State.resumeDrive
  cases s.cal.sched with
  | paused => exact State.takeUp_picture (s.setCal { s.cal with hold := false }) fun _ => rfl
  | idle => exact State.wake_picture _
  | surveying | driving | supplyLow => rfl

theorem State.surveyAll_picture : s.surveyAll.picture = s.picture := by
  unfold State.surveyAll
  cases s.cal.sched with
  | driving => simp only; split <;> simp
  | idle => exact State.requestSurvey_picture _
  | surveying | paused | supplyLow => rfl

theorem State.clearFaults_picture (sel : FaultSelector) : (s.clearFaults sel).picture = s.picture := by
  unfold State.clearFaults
  simp only
  split <;> simp

theorem State.takeResult_picture (p : Plan) (sensed : PinRow) : (s.takeResult p sensed).picture = s.picture := by
  unfold State.takeResult
  split
  · rfl
  · simp only
    split <;> simp

/-- R158, R163: a completion in DRIVING counts the stroke, and the scheduler goes on or pauses. -/
theorem State.completeDriving_picture (driving : s.cal.sched = .driving) : s.completeDriving.picture = s.picture := by
  have work : s.cal.sched.atWork = true := by rw [driving]; rfl
  generalize hr : (match s.cal.visit with | some v => s.countStroke v | none => (s, true)) = r
  have counted : PinPath s r.1 ∧ r.1.comp = s.comp := by
    subst hr
    split
    · unfold State.countStroke
      split
      · exact ⟨PinPath.setCal rfl rfl (.inl rfl), rfl⟩
      · exact ⟨PinPath.rowDone s _ work, State.rowDone_comp s _⟩
    · exact ⟨PinPath.refl s, rfl⟩
  have whole : s.completeDriving = if s.cal.hold then r.1.setCal { r.1.cal with sched := .paused } else State.goOn r := by
    rw [← hr]; rfl
  rw [whole]
  split
  · exact counted.1.picture counted.2
  · exact (PinPath.goOn work counted.1).picture ((State.goOn_comp r).trans counted.2)

theorem State.strokeDone_picture : s.strokeDone.picture = s.picture := by
  unfold State.strokeDone
  split
  · exact s.completeDriving_picture (by assumption)
  · unfold State.completeSurveying State.postDrive
    split <;> split <;> simp
  · rfl

theorem State.supplyLost_picture : s.supplyLost.picture = s.picture := by
  unfold State.supplyLost State.discardStroke
  split <;> exact State.post_picture _ _

theorem State.supplyBack_picture : s.supplyBack.picture = s.picture := by
  unfold State.supplyBack
  simp only
  split
  · exact State.post_picture _ _
  · exact State.takeUp_picture _ fun u => State.post_picture u _

end

/-! ### The rules of the settings -/

section
variable (p : List Byte) (s : State)

theorem setDriveRule_picture : (setDriveRule p s).1.picture = s.picture := by
  unfold setDriveRule
  split
  · split
    · exact State.reform_picture _ _
    · rfl
  · rfl

theorem setCalendarRule_picture : (setCalendarRule p s).1.picture = s.picture := by
  unfold setCalendarRule
  split
  · rfl
  · simp only
    split <;> rfl

/-- R177: SET TOUCH starts the run counts anew and leaves the zones in their states. -/
theorem setTouchRule_picture : (setTouchRule p s).1.picture = s.picture := by
  unfold setTouchRule
  split
  · split
    · exact State.picture_eq rfl rfl rfl fun z => by simp [Touch.configure]
    · rfl
  · rfl

theorem setNoticeMaskRule_picture : (setNoticeMaskRule p s).1.picture = s.picture := by
  unfold setNoticeMaskRule
  split
  · split <;> rfl
  · rfl

theorem setControlCodesRule_picture : (setControlCodesRule p s).1.picture = s.picture := by
  unfold setControlCodesRule
  split
  · rfl
  · simp only
    split_ifs <;> rfl

theorem clearFaultsRule_picture : (clearFaultsRule p s).1.picture = s.picture := by
  unfold clearFaultsRule
  split
  · split
    · rfl
    · exact s.clearFaults_picture _
  · rfl

end

/-! ### The transactions and the strokes -/

section
variable {s t : State}

/-- R180: a transaction changes the link alone. -/
theorem exec_transaction {c : Instr} (isTransaction : c.isTransaction = true) (h : exec c s = .next t) :
    ∃ x, t = s.setLink x := by
  have kept : ∃ x, s = s.setLink x := ⟨s.link, rfl⟩
  cases c with
  | writeCommand shown bytes =>
    unfold exec execWriteCommand at h
    simp only at h
    split_ifs at h
    · cases h; exact ⟨_, rfl⟩
    · cases h; exact kept
    · cases h; exact ⟨_, rfl⟩
    · split at h <;> cases h <;> exact ⟨_, rfl⟩
  | readResponse clocked =>
    unfold exec execReadResponse at h
    simp only at h
    split_ifs at h <;> cases h <;> exact ⟨_, rfl⟩
  | readNotice clocked =>
    unfold exec execReadNotice at h
    simp only at h
    split_ifs at h <;> cases h <;> exact ⟨_, rfl⟩
  | statusOnlyTransaction code clocked => exact outcome_of_ite (P := fun t => ∃ x, t = s.setLink x) ⟨_, rfl⟩ ⟨_, rfl⟩ h
  | _ => cases isTransaction

theorem execStrokeCompletion_picture {sensed : PinRow} (h : execStrokeCompletion sensed s = .next t) :
    t.picture = s.picture := by
  unfold execStrokeCompletion at h
  split at h
  · cases h; rfl
  · split at h <;> cases h
    · exact (State.strokeDone_picture _).trans (s.takeResult_picture _ sensed)
    · rfl

end

end Sys2Proof.Machine
end

section
/-! SUPPORT. The image after navigation's operations and the presses of the patron keys (R66, R67, R104, R109): navigation
composes what it shows, and the status line when its condition passes between SETTLED and waiting. -/

namespace Sys2Proof.Machine

/-- The image is composed but for the status line, which stands as it was while the condition was `before`. -/
def State.DrawnSince (s : State) (before : NavCondition) : Prop :=
  ∀ l, (l = 31 → s.comp.statusOn = true → (s.nav.cond = .settled ↔ before = .settled)) → s.Drawn l

section
variable {s t : State} {before : NavCondition}

theorem State.DrawnSince.congr (h : s.DrawnSince before) (same : t.picture = s.picture) : t.DrawnSince before := by
  have fields := same
  simp only [State.picture, Prod.mk.injEq] at fields
  obtain ⟨-, cond, comp, -⟩ := fields
  intro l status
  rw [cond, comp] at status
  exact (h l status).congr same

/-- R66, R104, R109: when the Compositor has been told of the condition the whole image is composed. -/
theorem State.DrawnSince.tellCondition (h : s.DrawnSince before) : (s.tellCondition before).ImageComposed := by
  unfold State.tellCondition
  split
  · exact State.recompose_image fun l other => h l fun bottom => absurd (List.mem_singleton.mpr bottom) other
  · rename_i untold
    refine State.imageComposed_iff.mpr fun l => h l fun _ on => ?_
    by_contra passes
    exact untold ⟨fun same => passes (by rw [same]), on⟩

theorem State.captureMiss_picture (s : State) (k : Key) : (s.captureMiss k).picture = s.picture := by
  unfold State.captureMiss
  split
  · rfl
  · exact State.post_picture _ _

end

namespace State.ImageComposed

variable {s t : State} (h : s.ImageComposed)

include h

/-- Navigation changes its condition: the status line may have to be composed again. -/
theorem setNav_since (n : Navigation) : (s.setNav n).DrawnSince s.nav.cond := fun l status =>
  (State.imageComposed_iff.mp h l).step (.of_inputs (.refl _ _) (fun _ => rfl)
    (fun bottom on => ⟨rfl, rfl, status bottom on⟩) fun _ _ => rfl) rfl rfl

/-- Navigation changes and keeps its condition. -/
theorem setNav (n : Navigation) (cond : n.cond = s.nav.cond) : (s.setNav n).ImageComposed :=
  h.congr (State.picture_eq rfl cond rfl fun _ => rfl)

theorem post (n : Notice) : (s.post n).ImageComposed := h.congr (s.post_picture n)

theorem showEntry (i : Fin 48) : (s.showEntry i).ImageComposed := by
  unfold State.showEntry
  split
  · exact h
  · exact State.recompose_allLines _

/-! ### Evaluations and tellings (R67, R68, R74 to R77) -/

theorem evaluate (cause : ShownCause) : (s.evaluate cause).ImageComposed := by
  unfold State.evaluate
  split
  · exact h
  · refine State.DrawnSince.tellCondition ?_
    split
    · rename_i k _ _ i _
      have shown := (h.showEntry i).setNav_since { (s.showEntry i).nav with shownKey := some k, cond := .settled }
      rw [(s.showEntry_path i).nav, State.setDir_nav] at shown
      exact shown.congr (State.post_picture _ _)
    · exact h.setNav_since _
    · exact h.setNav_since _
    · exact (h.setNav_since _).congr (State.captureMiss_picture _ _)

theorem mayEvaluate (b : Bool) (cause : ShownCause) : (if b then s.evaluate cause else s).ImageComposed := by
  split
  · exact h.evaluate cause
  · exact h

theorem maySetNav (b : Bool) (n : Navigation) (cond : n.cond = s.nav.cond) : (if b then s.setNav n else s).ImageComposed := by
  split
  · exact h.setNav n cond
  · exact h

theorem wantPage (page : BitVec 16) (cause : ShownCause) : (s.wantPage page cause).ImageComposed :=
  (h.setNav { s.nav with wanted := some page } rfl).evaluate cause
theorem loadEnded (k : Key) : (s.loadEnded k).ImageComposed := h.mayEvaluate _ _
theorem keyReleased (k : Key) : (s.keyReleased k).ImageComposed := h.mayEvaluate _ _
theorem keyCommitted (k : Key) : (s.keyCommitted k).ImageComposed :=
  (h.maySetNav (s.nav.lockedOn k) { s.nav with missLocked := false } rfl).mayEvaluate _ _

theorem keyMoved (before after : Key) (shown : Bool) : (s.keyMoved before after shown).ImageComposed := by
  unfold State.keyMoved
  refine mayEvaluate (maySetNav (maySetNav h _ _ ?_) _ _ ?_) _ _
  · rfl
  · rfl

theorem tellReleased (keys : List Key) : (s.tellReleased keys).ImageComposed := by
  induction keys generalizing s with
  | nil => exact h
  | cons k rest ih => exact ih (h.keyReleased k)

/-! ### Navigation's commands (R71 to R73) -/

theorem showRule (p : List Byte) : (showRule p s).1.ImageComposed := by
  unfold Machine.showRule
  split
  · split
    · exact h
    · rename_i k _
      split
      · exact h
      · exact (h.setNav { s.nav with document := k.doc } rfl).wantPage _ _
  · exact h

/-- R73: the Compositor is told when a waiting navigation returns to the shown key. -/
theorem declineMiss : s.declineMiss.ImageComposed := by
  unfold State.declineMiss
  split
  · simp only
    split
    · exact ((h.setNav { s.nav with missLocked := false } rfl).setNav_since _).tellCondition
    · exact h.setNav _ rfl
  · exact h

theorem setNavigationRule (p : List Byte) : (setNavigationRule p s).1.ImageComposed := by
  unfold Machine.setNavigationRule
  split
  · split
    · exact h
    · exact h.setNav _ rfl
  · exact h

/-! ### Presses of the patron keys (R56, R64, R69, R70) -/

/-- R53, R55, R56: the marks of an entry change, and the Compositor is told the lines whose marks have changed. -/
theorem setMarks (i : Fin 48) {marks : List Mark} {lines : List (Fin 32)}
    (others : ∀ l, l ∉ lines → marks.filter (·.line == l) = s.dir.entries[i].marks.filter (·.line == l)) :
    ((s.setDir (s.dir.setMarks i marks)).tellLines i lines).ImageComposed := by
  have entries : ∀ j : Fin 48, (s.dir.setMarks i marks).entries[j] = if j = i then
      { s.dir.entries[i] with marks := marks, revision := s.dir.entries[i].revision + 1 } else s.dir.entries[j] :=
    fun _ => Directory.setEntry_entry _ _ _ _
  refine State.tellLines_image fun l untold => h.drawn_setDir ?_
  refine .contents entries rfl rfl rfl (fun shown => others l (untold ?_)) fun _ _ _ _ => rfl
  rw [State.setDir_dir, entries, if_pos rfl]
  exact shown

theorem pageStep (next : BitVec 16 → BitVec 16) : (s.pageStep next).ImageComposed := by
  unfold State.pageStep
  split
  · exact h
  · split_ifs
    · exact h
    · exact h
    · exact h.wantPage _ _

theorem seek : s.seek.ImageComposed := by
  unfold State.seek
  split
  · exact h
  · split
    · exact h
    · split
      · exact h.wantPage _ _
      · exact h

theorem markPress : s.markPress.ImageComposed := by
  unfold State.markPress
  split
  · exact h
  · simp only
    split
    · exact h
    · split
      · exact h
      · rename_i toggled
        exact h.setMarks _ fun l other => toggleMark_filter_line toggled fun line => other (List.mem_singleton.mpr line.symm)

theorem pressKey (k : PatronKey) : (s.pressKey k).ImageComposed := by
  cases k with
  | prev => exact (h.post _).pageStep _
  | next => exact (h.post _).pageStep _
  | mark => exact (h.post _).markPress
  | seek => exact (h.post _).seek
  | call => exact h.post _

theorem pressKeys (keys : List PatronKey) : (s.pressKeys keys).ImageComposed := by
  induction keys generalizing s with
  | nil => exact h
  | cons k rest ih => exact ih (h.pressKey k)

theorem sample (down : Vector Bool 5) : (s.sample down).ImageComposed :=
  (h.setNav { s.nav with keys := sampleKeys s.nav.keys down } rfl).pressKeys _

end State.ImageComposed

end Sys2Proof.Machine
end

section
/-! SUPPORT. The image after the commands on entries and marks, the loads and the sweeps: what they change of the SHOWN entry
they tell the Compositor, line by line, and the rest does not show (R18 to R20, R24 to R55, R86 to R94, R109). -/

namespace Sys2Proof.Machine

namespace State.ImageComposed

variable {s t : State} (h : s.ImageComposed)

include h

/-! ### The commands on entries and marks (R18 to R20, R53, R55) -/

/-- R18: the bytes that PATCH CELLS writes lie on one line. -/
theorem patchCellsRule (sound : s.Contents) (p : List Byte) : (patchCellsRule p s).1.ImageComposed := by
  unfold Machine.patchCellsRule
  split
  · split
    · rename_i line _ _ _
      split
      · rename_i fits
        split
        · exact h
        · rename_i i _
          refine State.tellLines_image fun l untold => h.drawn_setDir ?_
          refine .contents (i := i) (e := { s.dir.entries[i] with revision := s.dir.entries[i].revision + 1 })
            (fun _ => Directory.setEntry_entry _ _ _ _) rfl rfl rfl (fun _ => rfl) fun j shown o row => ?_
          have onPage : o < 1280 := by omega
          rw [Directory.patch_frameByte _ _ _ _ _ _ _ sound.frames.1 fits.2.2 onPage, if_neg]
          rintro ⟨rfl, first, last⟩
          refine untold ?_ (List.mem_singleton.mpr (Fin.ext (by omega)))
          exact (congrArg Entry.state ((Directory.setEntry_entry _ _ _ _).trans (if_pos rfl))).trans shown
      · exact h
    · exact h
  · exact h

theorem addMarkRule (p : List Byte) : (addMarkRule p s).1.ImageComposed := by
  unfold Machine.addMarkRule
  split
  · split
    · split
      · exact h
      · simp only
        split_ifs
        · exact h
        · exact h.setMarks _ fun l other => filter_line_append fun line => other (List.mem_singleton.mpr line.symm)
        · exact h
    · exact h
  · exact h

theorem dropMarksRule (p : List Byte) : (dropMarksRule p s).1.ImageComposed := by
  unfold Machine.dropMarksRule
  split
  · split
    · split
      · exact h
      · simp only
        split
        · exact h
        · refine h.setMarks _ fun l other => filter_line_filter fun m mem gone line => other ?_
          exact List.mem_map.mpr ⟨m, List.mem_filter.mpr ⟨mem, by simpa using gone⟩, line⟩
    · exact h
  · exact h

/-- R20: pin and group are not composed. -/
theorem setEntryRule (p : List Byte) : (setEntryRule p s).1.ImageComposed := by
  unfold Machine.setEntryRule
  split
  · split
    · split
      · exact h
      · refine h.setDir (.of_faces (fun j => ?_) (Directory.setPinned_frames _ _ _))
        rw [Directory.assign_entry]
        split
        · rename_i same; rw [same]; rfl
        · rfl
    · exact h
  · exact h

/-- An entry that is not SHOWN becomes FREE. -/
theorem freeEntry {i : Fin 48} (hidden : s.dir.entries[i].state ≠ .shown) : (s.setDir (s.dir.freeEntry i)).ImageComposed :=
  h.setDir (.hiddenEntry (fun _ => Directory.freeEntry_entry _ _ _) hidden nofun fun _ _ _ _ => rfl)

/-- R19: only a READY entry is retired. -/
theorem retireRule (p : List Byte) : (retireRule p s).1.ImageComposed := by
  unfold Machine.retireRule
  split
  · split
    · split
      · exact h
      · rename_i i checked
        obtain ⟨-, -, -, ready, -⟩ := State.checkEntry_ok checked
        exact h.freeEntry (by rw [beq_iff_eq.mp ready]; nofun)
    · exact h
  · exact h

/-! ### Loads (R24 to R46) -/

/-- R12, R25: the entry that a load is given was FREE or READY. -/
theorem openLoadRule (agree : s.PagesAgree) (sound : s.Contents) (p : List Byte) : (openLoadRule p s).1.ImageComposed := by
  unfold Machine.openLoadRule
  split
  · exact h
  · split
    · exact h
    · split
      · exact h
      · split
        · exact h
        · rename_i i _ chosen
          have hidden : s.dir.entries[i].state ≠ .shown := by
            rcases Directory.chooseEntry_some chosen with ⟨-, free⟩ | ⟨-, queued, -⟩
            · rw [free]; nofun
            · rw [((agree.2.2.2.1.2 i).mp queued).1]; nofun
          refine (h.setDir (.hiddenEntry (fun _ => Directory.openEntry_entry _ _ _ _ _) hidden nofun
            fun j other o onPage => ?_)).congr (State.setLoad_picture _ _)
          rw [Directory.openEntry_frameByte sound.frames.1 _ _ _ _ onPage, if_neg other]

section
variable (agree : s.PagesAgree) {i : Fin 2} {r : LoadSlot} (filled : s.load.slots[i] = some r)

include agree filled

omit h in
/-- R22: the entry that a slot fills is LOADING. -/
theorem loading_hidden : s.dir.entries[r.entry].state ≠ .shown := by
  rw [(agree.2.1.1 i r filled).1]; nofun

/-- R39, R46: a load is dropped. -/
theorem dropLoad : (s.dropLoad i r).ImageComposed :=
  freeEntry (s := s.setLoad (s.load.setSlot i none)) (h.congr rfl) (loading_hidden agree filled)

theorem fatalStream (e : StreamError) (offset : Nat) : (s.fatalStream i r e offset).ImageComposed :=
  ((h.dropLoad agree filled).post _).loadEnded _

/-- R27: a stream's work writes the LOADING entry's frame and marks. -/
theorem storeWork (sound : s.Contents) {w : StreamWork} (goes : (s.streamWork r).Goes w) :
    (s.storeWork i w).ImageComposed := by
  have hidden : s.dir.entries[w.slot.entry].state ≠ .shown :=
    ne_of_eq_of_ne (congrArg (fun j : Fin 48 => s.dir.entries[j].state) goes.entry) (loading_hidden agree filled)
  refine setDir (s := s.setLoad (s.load.setSlot i (some w.slot))) (h.congr rfl) ?_
  refine .hiddenEntry (fun _ => getElem_set_fin _ _ _ _) hidden hidden fun j other o onPage => ?_
  have fits : (s.streamWork r).Fits := ⟨(sound.slots i r filled).1, (sound.slots i r filled).2.1, sound.frames.1⟩
  exact goes.frames fits j o onPage (goes.entry ▸ other)

/-- R43, R44: a committed page that replaces the SHOWN entry is composed as a whole; another does not show. -/
theorem takeCommit : (s.takeCommit i r).1.ImageComposed := by
  have idle : (s.setLoad (s.load.setSlot i none)).ImageComposed := h.congr rfl
  have hidden := loading_hidden agree filled
  unfold State.takeCommit
  simp only
  split
  · refine (idle.setDir ?_).keyCommitted _
    exact .hiddenEntry (fun _ => Directory.placeNew_entry _ _ _ _) hidden nofun fun j _ o _ =>
      Directory.frameByte_congr (Directory.placeNew_frames _ _ _) j o
  · rename_i v _
    refine keyCommitted ?_ _
    split
    · exact State.recompose_allLines _
    · rename_i unshown
      refine idle.setDir (.hidden (fun j => ?_) fun j _ o _ =>
        Directory.frameByte_congr (Directory.replaceEntry_frames _ _ _ _) j o)
      rw [Directory.replaceEntry_entry]
      split_ifs with old new
      · exact .inr ⟨old ▸ unshown, nofun⟩
      · exact .inr ⟨new ▸ hidden, nofun⟩
      · exact .inl rfl

end

theorem cancelLoadRule (agree : s.PagesAgree) (p : List Byte) : (cancelLoadRule p s).1.ImageComposed := by
  unfold Machine.cancelLoadRule
  split
  · split
    · exact h
    · split
      · exact h
      · rename_i filled
        exact (h.dropLoad agree filled).loadEnded _
  · exact h

theorem dataRule (agree : s.PagesAgree) (sound : s.Contents) (p : List Byte) : (dataRule p s).1.ImageComposed := by
  unfold Machine.dataRule
  split
  · exact h
  · split
    · exact h
    · split
      · exact h
      · split
        · exact h
        · rename_i bytes _ i _ _ _ r filled
          split
          · exact h
          · have goes := decodeBytes_goes s.load.escape s.load.codes.toList bytes (s.streamWork r) 0
            split
            all_goals
              rename_i e
              rw [e] at goes
              have stored := h.storeWork agree filled sound goes
            · exact stored
            · exact stored.fatalStream ((State.EntriesKept.storeWork filled goes).agree agree)
                ((Decoder.setSlot_slot _ _ _ _).trans (if_pos rfl)) _ _

theorem commitRule (agree : s.PagesAgree) (p : List Byte) : (commitRule p s).1.ImageComposed := by
  unfold Machine.commitRule
  split
  · exact h
  · split
    · exact h
    · rename_i i cond _ _ r filled
      have given : (s.setLoad (s.load.setSlot i (some { r with
        condition := cond.getD r.condition }))).ImageComposed := h.congr rfl
      simp only
      split
      · exact given
      · exact given.takeCommit ((State.PagesKept.setCondition filled _).agree agree)
          ((Decoder.setSlot_slot _ _ _ _).trans (if_pos rfl))

/-! ### Sweeps (R86 to R94) -/

/-- R86: HELD is not composed. -/
theorem sweepRule (p : List Byte) : (sweepRule p s).1.ImageComposed := by
  unfold Machine.sweepRule
  split
  · exact h
  · split
    · exact h
    · refine (h.setDir (.of_faces (fun j => ?_) (Directory.holdMatching_frames _ _))).congr (State.setSweep_picture _ _)
      rw [Directory.holdMatching_entry]
      split <;> rfl

theorem abortSweepRule (p : List Byte) : (abortSweepRule p s).1.ImageComposed := by
  unfold Machine.abortSweepRule
  split
  · exact h
  · have released : (s.setDir s.dir.releaseAll).ImageComposed :=
      h.setDir (.of_faces (fun j => by rw [Directory.releaseAll_entry]; rfl) (Directory.releaseAll_frames _))
    exact ((released.tellReleased _).post _).congr (State.setSweep_picture _ _)

theorem release (i : Fin 48) : (s.setDir (s.dir.release i)).ImageComposed := by
  refine h.setDir (.of_faces (fun j => ?_) rfl)
  have entry : (s.dir.release i).entries[j] = if j = i then { s.dir.entries[i] with held := false } else s.dir.entries[j] :=
    Directory.setEntry_entry _ _ _ _
  rw [entry]
  split
  · rename_i same; rw [same]; rfl
  · rfl

/-- R89: of what a visit changes only lost marks are composed; a key moves with its page. -/
theorem visitApply {i : Fin 48} {k : Key} (key : s.dir.entries[i].key = some k) (d : SweepDescriptor) :
    (if (s.dir.entries[i].marks.filter d.removes).map Mark.line = [] then s.setDir (s.dir.visitApply i d k)
      else (s.setDir (s.dir.visitApply i d k)).tellLines i
        ((s.dir.entries[i].marks.filter d.removes).map Mark.line)).ImageComposed := by
  have page : (some (d.keyAfter k)).map Key.page = s.dir.entries[i].key.map Key.page := by
    rw [key]; unfold SweepDescriptor.keyAfter; split <;> rfl
  have drawn : ∀ l, (s.dir.entries[i].state = .shown → l ∉ (s.dir.entries[i].marks.filter d.removes).map Mark.line) →
      (s.setDir (s.dir.visitApply i d k)).Drawn l := fun l untold => by
    refine h.drawn_setDir (.contents (fun _ => Directory.visitApply_entry _ _ _ _ _) rfl rfl page (fun shown => ?_)
      fun j _ o _ => Directory.frameByte_congr (Directory.visitApply_frames _ _ _ _) j o)
    refine filter_line_filter fun m mem gone line => untold shown ?_
    exact List.mem_map.mpr ⟨m, List.mem_filter.mpr ⟨mem, by simpa using gone⟩, line⟩
  split
  · rename_i none
    exact State.imageComposed_iff.mpr fun l => drawn l fun _ => by rw [none]; exact List.not_mem_nil
  · refine State.tellLines_image fun l untold => drawn l fun shown => untold ?_
    rw [State.setDir_dir, Directory.visitApply_entry, if_pos rfl]
    exact shown

theorem visitHeld (r : SweepRun) {i : Fin 48} {k : Key} (key : s.dir.entries[i].key = some k) :
    (s.visitHeld r i k).1.ImageComposed := by
  unfold State.visitHeld
  simp only
  split
  · split
    · exact (h.release i).keyReleased k
    · rename_i unshown
      exact (h.freeEntry unshown).keyReleased k
  · split
    · exact (h.release i).keyReleased k
    · have applied := h.visitApply key r.descriptor
      split
      · exact applied.keyReleased k
      · exact applied.keyMoved _ _ _

theorem visitEntry (r : SweepRun) (i : Fin 48) : (s.visitEntry r i).1.ImageComposed := by
  unfold State.visitEntry
  split
  · split
    · rename_i key
      exact h.visitHeld r key
    · exact h.release i
  · exact h

theorem sweepAdvance (r : SweepRun) : (s.sweepAdvance r).ImageComposed := by
  unfold State.sweepAdvance
  split
  · exact h
  · exact (h.post _).congr (State.setSweep_picture _ _)

end State.ImageComposed

end Sys2Proof.Machine
end

section
/-! SUPPORT. The image after the Compositor's own settings and timer and after a zone's change: the lines they reach are
composed again, and composing the others gives what it gave (R104 to R109, R168 to R175). -/

namespace Sys2Proof.Machine

/-- R105, R107: the settings and the blink timer that SET STATUS puts. -/
def State.putStatus (s : State) (on : Bool) (time : Nat) (text : Vector Byte 30) : State :=
  { s with comp := { s.comp with
    statusOn := on
    statusText := text
    blinkTime := time
    blinkTimer := if time = 0 then none else if time = s.comp.blinkTime then s.comp.blinkTimer else some time
    blinkOn := s.comp.blinkOn || decide (time = 0) } }

/-- R108: and after the change of phase that a blink phase time of 0 may be. -/
def State.putPhase (s : State) (on : Bool) (time : Nat) (text : Vector Byte 30) : State :=
  if s.comp.blinkOn = true ∨ time ≠ 0 then s.putStatus on time text else (s.putStatus on time text).blinkChanged

theorem Compositor.setBlink_eq (c : Compositor) (time : Nat) : c.setBlink time = { c with
    blinkTime := time
    blinkTimer := if time = 0 then none else if time = c.blinkTime then c.blinkTimer else some time
    blinkOn := c.blinkOn || decide (time = 0) } := by
  unfold Compositor.setBlink
  split_ifs with stopped kept
  · simp [stopped]
  · subst kept; simp [stopped]
  · simp [stopped]

/-- R107: SET STATUS changes the phase only from off to on, by a time of 0. -/
theorem State.putStatus_blinkOn (s : State) (on : Bool) (time : Nat) (text : Vector Byte 30) :
    (s.putStatus on time text).comp.blinkOn = s.comp.blinkOn ↔ s.comp.blinkOn = true ∨ time ≠ 0 := by
  change (s.comp.blinkOn || decide (time = 0)) = s.comp.blinkOn ↔ _
  cases s.comp.blinkOn <;> simp

/-- R105: after a change of phase the status line is composed, if it was on or is. -/
theorem State.setStatus_eq (s : State) (on : Bool) (time : Nat) (text : Vector Byte 30) : s.setStatus on time text =
    if s.comp.statusOn = true ∨ on = true then (s.putPhase on time text).recompose statusLine
    else s.putPhase on time text := by
  have put : s.setComp ({ s.comp with statusOn := on, statusText := text }.setBlink time) = s.putStatus on time text := by
    rw [Compositor.setBlink_eq]; rfl
  simp only [State.setStatus, put, State.putStatus_blinkOn, Bool.or_eq_true, State.putPhase]

/-- R168 to R170: a reading that tells of no change leaves the zone in its state. -/
theorem Zone.read_still {z : Zone} {m on off : Nat} : (z.read m on off).2 = false → (z.read m on off).1.state = z.state := by
  unfold Zone.read
  cases z.baseline with
  | none => exact fun _ => rfl
  | some b =>
    simp only
    split_ifs
    · exact fun _ => rfl
    · exact fun _ => rfl
    · split <;> nofun

theorem State.zoneChanged_picture (s : State) (z : Fin 16) (b : Bool) :
    (s.zoneChanged z b).picture = (s.recompose (s.zoneLines z)).picture := by
  unfold State.zoneChanged State.postTouch
  cases b <;> simp

namespace State.ImageComposed

variable {s : State} (h : s.ImageComposed)

include h

/-- The Compositor's settings change, and its image stays: a line stands if the change does not reach it. -/
theorem drawn_setComp {c : Compositor} {l : Fin 32} (target : c.target = s.comp.target)
    (markPins : c.markPins = s.comp.markPins) (on : l = 31 → c.statusOn = s.comp.statusOn)
    (status : l = 31 → s.comp.statusOn = true → c.statusText = s.comp.statusText ∧ c.glyphs = s.comp.glyphs)
    (phase : c.blinkOn = s.comp.blinkOn ∨ l ∉ (s.setComp c).blinkLines) : (s.setComp c).Drawn l := by
  refine (State.imageComposed_iff.mp h l).step (.of_inputs (.refl _ _) on
    (fun bottom isOn => ⟨(status bottom isOn).1, (status bottom isOn).2, Iff.rfl⟩) fun z cursor => ?_) target markPins
  rcases phase with same | still
  · rw [State.setComp_comp, same]; rfl
  · obtain ⟨off, cursor⟩ := cursor
    have steady : s.zoneSteady z = true := by
      by_contra clear
      refine still (State.mem_blinkLines.mpr ⟨z, ⟨fun bottom => off ⟨bottom.1, ?_⟩, cursor⟩, ?_⟩)
      · exact (on bottom.1).symm.trans bottom.2
      · simpa [State.zoneSteady] using clear
    rw [show (s.setComp c).zoneSteady z = s.zoneSteady z from rfl, steady, Bool.or_true, Bool.or_true]

/-- R105: the line that the status line takes or leaves is line 31, and a change of phase is told. -/
theorem setStatus (on : Bool) (time : Nat) (text : Vector Byte 30) : (s.setStatus on time text).ImageComposed := by
  have drawn : ∀ l : Fin 32, (l = 31 → s.comp.statusOn = false ∧ on = false) →
      ((s.putStatus on time text).comp.blinkOn = s.comp.blinkOn ∨ l ∉ (s.putStatus on time text).blinkLines) →
      (s.putStatus on time text).Drawn l := fun l off => by
    refine h.drawn_setComp rfl rfl (fun bottom => ?_) fun bottom isOn => ?_
    · exact (off bottom).2.trans (off bottom).1.symm
    · cases (off bottom).1.symm.trans isOn
  have phased : ∀ l : Fin 32, (l = 31 → s.comp.statusOn = false ∧ on = false) → (s.putPhase on time text).Drawn l := by
    intro l off
    unfold State.putPhase
    split
    · rename_i same
      exact drawn l off (.inl ((State.putStatus_blinkOn _ _ _ _).mpr same))
    · exact State.recompose_drawn fun other => drawn l off (.inr other)
  rw [State.setStatus_eq]
  split
  · exact State.recompose_image fun l other => phased l fun bottom => absurd (List.mem_singleton.mpr bottom) other
  · rename_i off
    exact State.imageComposed_iff.mpr fun l => phased l fun _ => by simpa using off

theorem setStatusRule (p : List Byte) : (setStatusRule p s).1.ImageComposed := by
  unfold Machine.setStatusRule
  split
  · split
    · exact h
    · split
      · exact h.setStatus _ _ _
      · exact h
  · exact h

/-- R106: only the status line shows the glyphs. -/
theorem setGlyphs (g : Glyphs) : (s.setGlyphs g).ImageComposed := by
  have drawn : ∀ l : Fin 32, (l = 31 → s.comp.statusOn = false) → (s.setComp { s.comp with glyphs := g }).Drawn l :=
    fun l off => h.drawn_setComp rfl rfl (fun _ => rfl) (fun bottom on => by cases (off bottom).symm.trans on) (.inl rfl)
  unfold State.setGlyphs
  simp only
  split
  · exact State.recompose_image fun l other => drawn l fun bottom => absurd (List.mem_singleton.mpr bottom) other
  · rename_i off
    exact State.imageComposed_iff.mpr fun l => drawn l fun _ => by simpa using off

/-- R108: the blink phase is flipped. -/
theorem blinkFlipped : (s.setComp { s.comp with blinkOn := !s.comp.blinkOn }).blinkChanged.ImageComposed := by
  unfold State.blinkChanged
  refine State.recompose_image fun l other => ?_
  exact h.drawn_setComp rfl rfl (fun _ => rfl) (fun _ _ => ⟨rfl, rfl⟩) (.inr other)

/-- R109, R171: a zone that changes its state is told; one that keeps it changes nothing that is composed. -/
theorem zoneTakes {z : Fin 16} {r : Zone × Bool} (kept : r.2 = false → r.1.state = s.touch.zones[z].state) :
    (s.zoneTakes z r).ImageComposed := by
  have alike : ∀ (t : State) (l : Fin 32), t.dir = s.dir → t.comp = s.comp → t.nav = s.nav →
      t.touch.zones = s.touch.zones.set z r.1 → (r.2 = false ∨ l ∉ t.zoneLines z) → t.Drawn l := by
    intro t l dir comp nav zones told
    have state : ∀ j : Fin 16, t.touch.zones[j].state = if j = z then r.1.state else s.touch.zones[j].state := fun j => by
      rw [zones, getElem_set_fin]
      split <;> rfl
    refine (State.imageComposed_iff.mp h l).step (.of_inputs (by rw [dir]; exact .refl _ _) (fun _ => by rw [comp])
      (fun _ _ => by rw [comp, nav]; exact ⟨rfl, rfl, Iff.rfl⟩) fun j cursor => ?_) (by rw [comp]) (by rw [comp])
    have same : t.touch.zones[j].state = s.touch.zones[j].state := by
      rw [state]
      split
      · rename_i at'
        subst at'
        rcases told with still | other
        · exact kept still
        · refine absurd (State.mem_zoneLines.mpr ?_) other
          rwa [State.CursorIn, dir, comp]
      · rfl
    rw [State.zoneSteady, same, comp, State.zoneSteady]
  unfold State.zoneTakes
  simp only
  split
  · split
    all_goals
      refine ImageComposed.congr (State.recompose_image fun l other => ?_) (State.zoneChanged_picture _ _ _)
      exact alike _ l rfl rfl rfl rfl (.inr other)
  · rename_i still
    exact State.imageComposed_iff.mpr fun l => alike _ l rfl rfl rfl rfl (.inl (by simpa using still))

/-! ### Taking a command -/

/-- R181 to R183: a command that is taken by a rule, or refused. -/
theorem take {t : State} {code : Byte} {b : CommandBody} {owner : List Byte → State → State × Reply}
    (rule : ∀ p, (owner p s).1.ImageComposed) (taken : s.take code b owner = .next t) : t.ImageComposed := by
  rcases State.take_cases owner taken with ⟨-, -, rfl⟩ | ⟨-, -, rfl⟩ | ⟨-, rfl⟩
  · exact (rule b.payload).congr rfl
  · exact h.congr rfl
  · exact h

theorem still {t : State} {code : Byte} {b : CommandBody} {owner : List Byte → State → State × Reply}
    (rule : ∀ p, (owner p s).1.picture = s.picture) (taken : s.take code b owner = .next t) : t.ImageComposed :=
  h.take (fun p => h.congr (rule p)) taken

end State.ImageComposed

end Sys2Proof.Machine
end

section
/-! SUPPORT. Every row keeps the image composed (R97, R109). -/

namespace Sys2Proof.Machine

variable {s t : State}

/-- R21, R112: a reset puts an empty directory, and the image of one. -/
theorem State.ImageComposed.resetBlocks (s : State) (kind : ResetKind) : (s.resetBlocks kind).ImageComposed := by
  obtain ⟨-, -, -, image, -⟩ := State.reset_safe
  exact image.congr (by rw [State.resetBlocks_eq]; rfl)

theorem execTimeout_composed (h : s.ImageComposed) (agree : s.PagesAgree) {slot : Fin 2}
    (e : execTimeout slot s = .next t) : t.ImageComposed := by
  unfold execTimeout at e
  split at e
  · cases e; exact h
  · split at e <;> cases e
    · exact h
    · exact h.fatalStream agree (by assumption) _ _

theorem execSweepVisit_composed (h : s.ImageComposed) (e : execSweepVisit s = .next t) : t.ImageComposed := by
  unfold execSweepVisit at e
  split at e
  · cases e; exact h
  · split at e <;> cases e
    · exact h
    · exact (h.visitEntry _ _).sweepAdvance _

/-- R180: a transaction changes the link alone. -/
theorem exec_transaction_composed (h : s.ImageComposed) {c : Instr} (isTransaction : c.isTransaction = true)
    (e : exec c s = .next t) : t.ImageComposed := by
  obtain ⟨x, rfl⟩ := exec_transaction isTransaction e
  exact h.congr rfl

/-- Every row: what it changes of the composed lines' inputs it tells the Compositor. -/
theorem exec_composed (h : s.ImageComposed) (agree : s.PagesAgree) (sound : s.Contents) {c : Instr}
    (e : exec c s = .next t) : t.ImageComposed := by
  cases c with
  | openLoad b => exact h.take (h.openLoadRule agree sound) e
  | data b => exact h.take (h.dataRule agree sound) e
  | commit b => exact h.take (h.commitRule agree) e
  | cancelLoad b => exact h.take (h.cancelLoadRule agree) e
  | setControlCodes b => exact h.still (fun p => setControlCodesRule_picture p s) e
  | queryEntry b => exact h.still (fun p => by rw [queryEntryRule_state]) e
  | listEntries b => exact h.still (fun p => by rw [listEntriesRule_state]) e
  | readRow b => exact h.still (fun p => by rw [readRowRule_state]) e
  | readFaults b => exact h.still (fun _ => rfl) e
  | readStatus b => exact h.still (fun _ => rfl) e
  | patchCells b => exact h.take (h.patchCellsRule sound) e
  | retire b => exact h.take h.retireRule e
  | setEntry b => exact h.take h.setEntryRule e
  | addMark b => exact h.take h.addMarkRule e
  | dropMarks b => exact h.take h.dropMarksRule e
  | sweep b => exact h.take h.sweepRule e
  | abortSweep b => exact h.take h.abortSweepRule e
  | showKey b => exact h.take h.showRule e
  | declineMiss b => exact h.take (fun _ => h.declineMiss) e
  | setNavigation b => exact h.take h.setNavigationRule e
  | setStatus b => exact h.take h.setStatusRule e
  | setGlyphs b => exact h.take (fun _ => h.setGlyphs _) e
  | setCalendar b => exact h.still (fun p => setCalendarRule_picture p s) e
  | setDrive b => exact h.still (fun p => setDriveRule_picture p s) e
  | pauseDrive b => exact h.still (fun _ => s.pauseDrive_picture) e
  | resumeDrive b => exact h.still (fun _ => s.resumeDrive_picture) e
  | survey b => exact h.still (fun _ => s.surveyAll_picture) e
  | clearFaults b => exact h.still (fun p => clearFaultsRule_picture p s) e
  | setTouch b => exact h.still (fun p => setTouchRule_picture p s) e
  | setNoticeMask b => exact h.still (fun p => setNoticeMaskRule_picture p s) e
  | resetCommand b => exact h.take (fun _ => .resetBlocks s .command) e
  | powerOnReset => cases e; exact .resetBlocks s .powerOn
  | pinReset => cases e; exact .resetBlocks { s with resetPin := false } .pin
  | resetPinAsserted => cases e; exact h.congr rfl
  | writeCommand shown bytes => exact exec_transaction_composed h rfl e
  | readResponse clocked => exact exec_transaction_composed h rfl e
  | readNotice clocked => exact exec_transaction_composed h rfl e
  | statusOnlyTransaction code clocked => exact exec_transaction_composed h rfl e
  | unknownCommand code b => exact outcome_of_ite (h.congr (State.setLink_picture s _)) h e
  | keySample prev next mark seek call => exact outcome_of_ite h (h.sample _) e
  | timeout slot => exact execTimeout_composed h agree e
  | blinkTimerExpiry => exact outcome_of_ite h h.blinkFlipped e
  | zoneReading zone count => exact outcome_of_ite h (h.zoneTakes Zone.read_still) e
  | holdTimerExpiry zone => exact outcome_of_ite h (h.zoneTakes (r := (_, true)) nofun) e
  | refillUnitArrival =>
    have filled : ∀ d, (s.setDrive d).ImageComposed := fun _ => h.congr rfl
    exact outcome_of_ite h ((filled _).congr (State.startIfCharged_picture _)) e
  | strokeStart => exact outcome_of_ite h (h.congr (State.startIfCharged_picture s)) e
  | strokeCompletion sensed => exact h.congr (execStrokeCompletion_picture e)
  | supplyFall =>
    have low : ({ s with supplyPin := .low } : State).ImageComposed := h.congr rfl
    exact outcome_of_ite low (low.congr (State.supplyLost_picture _)) e
  | supplyRise =>
    have ok : ({ s with supplyPin := .ok } : State).ImageComposed := h.congr rfl
    exact outcome_of_ite ok (ok.congr (State.supplyBack_picture _)) e
  | sweepVisit => exact execSweepVisit_composed h e

end Sys2Proof.Machine

section
open Sys2Proof Sys2Proof.Machine

/-- Settles O56: by the row taken; of the lines that a row leaves, composing gives what it gave before. -/
theorem stepKeepsTheImage : Obligations.StepKeepsTheImage := by
  intro s t agree marks stores h e
  unfold step at e
  split at e
  · cases e; exact h
  · rename_i rest _
    have sound : s.Contents := s.contents_iff.mpr ⟨marks, stores⟩
    exact exec_composed (s := { s with pending := rest }) (h.congr rfl) agree (sound.congr rfl) e

end
end

section
/-! SUPPORT. Recomposition before the Planner and the calendar are told of it: the targets it moves, and the attempt counts
it drops (R109, R110). -/

namespace Sys2Proof.Machine

/-- R97, R109: the named lines have their composed targets and mark pins, and every pin whose target that changed has no
attempts; the Planner and the calendar have not been told. -/
def State.composed (s : State) (lines : List (Fin 32)) : State :=
  { s with
    comp := { s.comp with target := s.newTarget lines, markPins := s.newMarkPins lines }
    pins := { s.pins with
      attempts := storeDrop (pinChanged (s.targetChanges (s.newTarget lines))) s.pins.attempts } }

section
variable (s : State) (lines : List (Fin 32))

theorem State.composed_target (r : Fin 128) :
    (s.composed lines).comp.target[r] = if lineOfRow r ∈ lines then s.composeRow r else s.comp.target[r] := by
  simp [State.composed, State.newTarget]

theorem State.composed_markPins (l : Fin 32) :
    (s.composed lines).comp.markPins[l] = if l ∈ lines then s.composeMarkPins l else s.comp.markPins[l] := by
  simp [State.composed, State.newMarkPins]

theorem State.targetChanges_row (target : Vector PinRow 128) (r : Fin 128) :
    (s.targetChanges target)[r] = s.comp.target[r] ^^^ target[r] := by
  simp [State.targetChanges]

theorem pinChanged_pinIndex (changes : Vector PinRow 128) (r : Fin 128) (c : Fin 80) :
    pinChanged changes (pinIndex r c) = changes[r].getLsbD c.val := by
  have row : (80 * r.val + c.val) / 80 = r.val := by omega
  have col : (80 * r.val + c.val) % 80 = c.val := by omega
  simp only [pinChanged, pinIndex, row, col, r.isLt, dite_true, Fin.getElem_fin]

/-- R109: a pin keeps its attempt count exactly if its target stays. -/
theorem State.composed_attempt (canonical : storeWf 0 s.pins.attempts = true) (r : Fin 128) (c : Fin 80) :
    (s.composed lines).pins.attempt r c =
      if (s.composed lines).comp.target[r].getLsbD c.val = s.comp.target[r].getLsbD c.val then s.pins.attempt r c else 0 := by
  have changed : pinChanged (s.targetChanges (s.newTarget lines)) (pinIndex r c) =
      (s.comp.target[r].getLsbD c.val ^^ (s.newTarget lines)[r].getLsbD c.val) := by
    rw [pinChanged_pinIndex, State.targetChanges_row, BitVec.getLsbD_xor]
  refine (storeRead_storeDrop _ _ _ _ canonical).trans ?_
  rw [changed]
  change _ = if (s.newTarget lines)[r].getLsbD c.val = _ then _ else _
  cases s.comp.target[r].getLsbD c.val <;> cases (s.newTarget lines)[r].getLsbD c.val <;> rfl

theorem State.targetChanges_row_eq_zero {target : Vector PinRow 128} {r : Fin 128} :
    (s.targetChanges target)[r] = 0 ↔ target[r] = s.comp.target[r] := by
  rw [State.targetChanges_row]
  exact BitVec.xor_eq_zero_iff.trans eq_comm

/-- R109: no pin's target has changed. -/
theorem State.targetChanges_eq_zero {target : Vector PinRow 128} :
    s.targetChanges target = Vector.replicate 128 0 ↔ ∀ r : Fin 128, target[r] = s.comp.target[r] := by
  refine ⟨fun none r => s.targetChanges_row_eq_zero.mp (by rw [none]; simp), fun same => ?_⟩
  refine Vector.ext fun r hr => ?_
  have row : (s.targetChanges target)[(⟨r, hr⟩ : Fin 128)] = 0 := s.targetChanges_row_eq_zero.mpr (same _)
  rw [Vector.getElem_replicate]
  exact row

theorem State.recompose_eq : s.recompose lines =
    if s.targetChanges (s.newTarget lines) = Vector.replicate 128 0 then s.composed lines
    else ((s.composed lines).reform fun r => (s.targetChanges (s.newTarget lines))[r] != 0).wake := by
  simp only [State.recompose, State.composed, State.setComp, State.setPins]

theorem State.composed_comp_target : (s.composed lines).comp.target = s.newTarget lines := rfl

/-- Without a changed target neither the Planner nor the calendar is told. -/
theorem State.recompose_of_same (same : ∀ r : Fin 128, (s.composed lines).comp.target[r] = s.comp.target[r]) :
    s.recompose lines = s.composed lines := by
  rw [State.composed_comp_target] at same
  rw [State.recompose_eq, if_pos (s.targetChanges_eq_zero.mpr same)]

/-- R110: the Planner and the calendar are told of the rows whose targets have changed. -/
theorem State.recompose_of_moved (moved : ∃ r : Fin 128, (s.composed lines).comp.target[r] ≠ s.comp.target[r]) :
    s.recompose lines =
      ((s.composed lines).reform fun r => decide ((s.composed lines).comp.target[r] ≠ s.comp.target[r])).wake := by
  have rows : ∀ r : Fin 128, ((s.targetChanges (s.newTarget lines))[r] != 0) =
      decide ((s.composed lines).comp.target[r] ≠ s.comp.target[r]) := fun r => by
    rw [Bool.eq_iff_iff, bne_iff_ne, decide_eq_true_iff, State.composed_comp_target]
    exact not_congr s.targetChanges_row_eq_zero
  obtain ⟨r, other⟩ := moved
  have told : s.targetChanges (s.newTarget lines) ≠ Vector.replicate 128 0 := fun none =>
    other (s.targetChanges_eq_zero.mp none r)
  rw [State.recompose_eq, if_neg told]
  simp only [rows]

end

end Sys2Proof.Machine

section
open Sys2Proof Sys2Proof.Machine

/-- Settles O41, by the state that recomposition hands to the Planner and the calendar. -/
theorem recompositionMovesTargets : Obligations.RecompositionMovesTargets := fun s lines canonical =>
  ⟨s.composed lines, rfl, s.composed_target lines, s.composed_markPins lines, s.composed_attempt lines canonical,
    s.recompose_of_same lines, s.recompose_of_moved lines⟩

end
end

section
/-! SUPPORT. SET STATUS, SET GLYPHS and the blink timer: the settings they put, the payloads that are taken and refused, and
the lines that are composed again (R105 to R108). -/

namespace Sys2Proof.Machine

theorem blinkTimeGood_iff {time : Nat} :
    blinkTimeGood time = true ↔ time = 0 ∨ (200 ≤ time ∧ time ≤ 2000 ∧ time % 100 = 0) := by
  simp [blinkTimeGood, and_assoc]

theorem storeDrop_none {α : Type} {p : Nat → Bool} (m : List (Nat × α)) (none : ∀ a, p a = false) : storeDrop p m = m := by
  simp [storeDrop, none]

/-- R109: to compose no line again changes nothing. -/
theorem State.recompose_nil (s : State) : s.recompose [] = s := by
  have target : s.newTarget [] = s.comp.target := Vector.ext fun r hr => by simp [State.newTarget]
  have markPins : s.newMarkPins [] = s.comp.markPins := Vector.ext fun l hl => by simp [State.newMarkPins]
  have still : ∀ a, pinChanged (s.targetChanges s.comp.target) a = false := fun a => by
    simp [pinChanged, State.targetChanges]
  rw [State.recompose_of_same _ _ fun r => s.composed_target [] r, State.composed, target, markPins, storeDrop_none _ still]

/-- R108: a change of phase composes a list of lines exactly if it holds the lines that blink. -/
theorem State.blinkChanged_eq {s : State} {lines : List (Fin 32)} (all : ∀ l, l ∈ lines ↔ s.Blinks l) :
    s.blinkChanged = s.recompose lines :=
  State.recompose_congr fun l => State.mem_blinkLines.trans (all l).symm

/-- R108: after a change of phase the lines that blink are composed. -/
theorem State.blinkChanged_drawn {s : State} {l : Fin 32} (blinks : s.Blinks l) : s.blinkChanged.Drawn l :=
  State.recompose_drawn fun other => absurd (State.mem_blinkLines.mpr blinks) other

section
variable (s : State) (on : Bool) (time : Nat) (text : Vector Byte 30)

theorem State.putPhase_eq {lines : List (Fin 32)} (all : ∀ l, l ∈ lines ↔ (s.putStatus on time text).Blinks l) :
    s.putPhase on time text = if s.comp.blinkOn = true ∨ time ≠ 0 then s.putStatus on time text
      else (s.putStatus on time text).recompose lines := by
  rw [State.putPhase, State.blinkChanged_eq all]

theorem PinPath.setStatus : PinPath (s.putStatus on time text) (s.setStatus on time text) := by
  have phase : PinPath (s.putStatus on time text) (s.putPhase on time text) := by
    unfold State.putPhase
    split
    · exact .refl _
    · exact .blinkChanged _
  rw [State.setStatus_eq]
  split
  · exact phase.trans (.recompose _ _)
  · exact phase

/-- R105: line 31 is composed again. -/
theorem State.setStatus_statusLine (shown : s.comp.statusOn = true ∨ on = true) {r : Fin 128} (bottom : 124 ≤ r.val) :
    (s.setStatus on time text).comp.target[r] = (s.setStatus on time text).composeRow r := by
  rw [State.setStatus_eq, if_pos shown]
  exact State.recompose_composed _ _ _ (mem_statusLine.mpr bottom)

/-- R107, R108: a time of 0 turns the phase on, and the lines that blink are composed again. -/
theorem State.setStatus_blinks {l : Fin 32} (blinks : (s.putStatus on time text).Blinks l) (off : s.comp.blinkOn = false)
    (stopped : time = 0) : (s.setStatus on time text).Drawn l := by
  have phase : (s.putPhase on time text).Drawn l := by
    rw [State.putPhase, if_neg (by simp [off, stopped])]
    exact State.blinkChanged_drawn blinks
  rw [State.setStatus_eq]
  split
  · exact State.recompose_drawn fun _ => phase
  · exact phase

/-! ### The payloads -/

/-- R105: the payload of SET STATUS. -/
theorem setStatusRule_taken (good : blinkTimeGood time = true) :
    setStatusRule (putBool on :: putNat16 time ++ text.toList) s = (s.setStatus on time text, ⟨.ok, []⟩) := by
  have short : time < 65536 := by
    have range := blinkTimeGood_iff.mp good
    omega
  have cells : (Vector.ofFn fun i : Fin 30 => text.toList.getD i.val 0) = text :=
    Vector.ext fun i hi => by simp
  simp only [putNat16, put16, List.cons_append, List.nil_append, setStatusRule, readBool_putBool, word16_put16,
    put16_putNat16_toNat time short, good, if_true, cells]

end

theorem setStatusRule_badArgument {on : Byte} {time : BitVec 16} {text : List Byte}
    (bad : 2 ≤ on.toNat ∨ ¬ blinkTimeGood time.toNat = true) (s : State) :
    setStatusRule (on :: put16 time ++ text) s = (s, .bare .badArgument) := by
  simp only [put16, List.cons_append, List.nil_append, setStatusRule, word16_put16]
  split
  · rfl
  · rename_i isBool
    rw [if_neg (bad.resolve_left (Nat.not_le.mpr (readBool_some isBool)))]

/-- R106: the payload of SET GLYPHS. -/
theorem glyphsOf_patterns (g : Glyphs) : glyphsOf (g.numberSign :: g.digits.toList ++ [g.settled, g.waiting]) = g := by
  obtain ⟨numberSign, digits, settled, waiting⟩ := g
  have patterns : ∀ i, i < 10 → (digits.toList ++ [settled, waiting]).getD i 0 = digits.toList.getD i 0 := fun i hi =>
    List.getD_append _ _ _ _ (by simpa using hi)
  have tail : ∀ i, (digits.toList ++ [settled, waiting]).getD (i + 10) 0 = [settled, waiting].getD i 0 := fun i => by
    rw [List.getD_append_right _ _ _ _ (by simp), Vector.length_toList, Nat.add_sub_cancel]
  have digit : (Vector.ofFn fun i : Fin 10 => (digits.toList ++ [settled, waiting]).getD i.val 0) = digits :=
    Vector.ext fun i hi => by rw [Vector.getElem_ofFn, patterns i hi]; simp [hi]
  simp only [glyphsOf, List.cons_append, List.getD_cons_zero, List.getD_cons_succ, digit, tail 0, tail 1]

theorem setGlyphsRule_taken (g : Glyphs) (s : State) :
    setGlyphsRule (g.numberSign :: g.digits.toList ++ [g.settled, g.waiting]) s = (s.setGlyphs g, ⟨.ok, []⟩) := by
  rw [setGlyphsRule, glyphsOf_patterns]

end Sys2Proof.Machine

section
open Sys2Proof Sys2Proof.Machine

/-- Settles O42, by the settings that each rule puts and the lines that it then composes again. -/
theorem statusLineAndBlink : Obligations.StatusLineAndBlink := by
  intro s b tag
  refine ⟨?setStatus, ?refused, ?setGlyphs, fun stopped => ?stopped, fun runs accepts => ?expires⟩
  case setStatus =>
    rintro on time text rfl accepts good
    have length : (putBool on :: putNat16 time ++ text.toList).length = 33 := by simp [putNat16, put16]
    refine ⟨s.putStatus on time text, s.setStatus on time text, rfl, .setStatus s on time text,
      fun shown r => s.setStatus_statusLine on time text shown,
      fun l blinks off stopped => (s.setStatus_blinks on time text blinks off stopped).target, ?_, ?_,
      State.take_frameOf accepts ((congrArg (lengthAllowed 0x40) length).trans rfl)
        (setStatusRule_taken s on time text (blinkTimeGood_iff.mpr good))⟩
    · rintro lines w all rfl
      rw [← s.putPhase_eq on time text all]
      exact s.setStatus_eq on time text
    · intro wasOff off still
      rw [State.setStatus_eq, if_neg (by simp [wasOff, off]), State.putPhase, if_pos still]
  case refused =>
    rintro on time text rfl length accepts bad
    rw [← blinkTimeGood_iff] at bad
    have length : (on :: put16 time ++ text).length = 33 := by simp [put16, length]
    exact State.take_frameOf accepts ((congrArg (lengthAllowed 0x40) length).trans rfl) (setStatusRule_badArgument bad s)
  case setGlyphs =>
    rintro g rfl accepts
    have length : (g.numberSign :: g.digits.toList ++ [g.settled, g.waiting]).length = 13 := by simp
    have eq : s.setGlyphs g = if s.comp.statusOn = true then (s.setComp { s.comp with glyphs := g }).recompose statusLine
      else s.setComp { s.comp with glyphs := g } := rfl
    refine ⟨s.setComp { s.comp with glyphs := g }, s.setGlyphs g, rfl, ?_, fun shown => ?_, fun off => ?_,
      State.take_frameOf accepts ((congrArg (lengthAllowed 0x41) length).trans rfl) (setGlyphsRule_taken g s)⟩
    · rw [eq]
      split
      · exact .recompose _ _
      · exact .refl _
    · rw [eq, if_pos shown]
      exact ⟨rfl, fun r bottom => State.recompose_composed _ _ _ (mem_statusLine.mpr bottom)⟩
    · rw [eq, if_neg (by simp [off])]
  case stopped =>
    exact if_pos (by simp [stopped])
  case expires =>
    refine ⟨_, _, rfl, .blinkChanged _, fun l blinks => (State.blinkChanged_drawn blinks).target,
      fun lines all => State.blinkChanged_eq all, fun none => ?_, if_neg (by simp [runs, accepts])⟩
    rw [State.blinkChanged_eq (lines := []) (by simp [none]), State.recompose_nil]

end
end

section
/-! SUPPORT. The rows that reach the pin path only through recompositions: the commands on pages, loads, sweeps, navigation
and the status line, the transactions, the keys and the timers of loads and blinking (00, Paths through the part). -/

namespace Sys2Proof.Machine

/-- What the pin path works on. -/
def State.pinBlocks (s : State) : PinField × Vector PinRow 128 × Drive × Calendar × Touch :=
  (s.pins, s.comp.target, s.drive, s.cal, s.touch)

/-- `s` comes from `a` by changes that leave the blocks of the pin path alone and by recompositions. -/
inductive State.Recomposes (a : State) : State → Prop
  | refl : a.Recomposes a
  | apart {s t : State} (h : a.Recomposes s) (same : t.pinBlocks = s.pinBlocks) : a.Recomposes t
  | recompose {s : State} (h : a.Recomposes s) (lines : List (Fin 32)) : a.Recomposes (s.recompose lines)

namespace State.Recomposes

variable {a s : State} (h : a.Recomposes s)

include h

theorem setLink (x : Link) : a.Recomposes (s.setLink x) := h.apart rfl
theorem setDir (x : Directory) : a.Recomposes (s.setDir x) := h.apart rfl
theorem setLoad (x : Decoder) : a.Recomposes (s.setLoad x) := h.apart rfl
theorem setSweep (x : Option SweepRun) : a.Recomposes (s.setSweep x) := h.apart rfl
theorem setNav (x : Navigation) : a.Recomposes (s.setNav x) := h.apart rfl
theorem setComp {x : Compositor} (target : x.target = s.comp.target) : a.Recomposes (s.setComp x) :=
  h.apart (by simp only [State.pinBlocks, State.setComp, target])
theorem post (n : Notice) : a.Recomposes (s.post n) := h.apart (by simp [State.pinBlocks])

theorem tellLines (i : Fin 48) (lines : List (Fin 32)) : a.Recomposes (s.tellLines i lines) := by
  unfold State.tellLines
  split
  · exact h.recompose lines
  · exact h

/-! ### Navigation (R64 to R77) -/

theorem showEntry (i : Fin 48) : a.Recomposes (s.showEntry i) := by
  unfold State.showEntry
  split
  · exact h
  · exact (h.setDir _).recompose _

theorem tellCondition (before : NavCondition) : a.Recomposes (s.tellCondition before) := by
  unfold State.tellCondition
  split
  · exact h.recompose _
  · exact h

theorem captureMiss (k : Key) : a.Recomposes (s.captureMiss k) := by
  unfold State.captureMiss
  split
  · exact h
  · exact (h.setNav _).post _

theorem evaluate (cause : ShownCause) : a.Recomposes (s.evaluate cause) := by
  unfold State.evaluate
  split
  · exact h
  · refine tellCondition ?_ _
    split
    · exact ((h.showEntry _).setNav _).post _
    · exact h.setNav _
    · exact h.setNav _
    · exact (h.setNav _).captureMiss _

theorem mayEvaluate (b : Bool) (cause : ShownCause) : a.Recomposes (if b then s.evaluate cause else s) := by
  split
  · exact h.evaluate cause
  · exact h

theorem maySetNav (b : Bool) (n : Navigation) : a.Recomposes (if b then s.setNav n else s) := by
  split
  · exact h.setNav n
  · exact h

theorem wantPage (page : BitVec 16) (cause : ShownCause) : a.Recomposes (s.wantPage page cause) :=
  (h.setNav _).evaluate cause
theorem loadEnded (k : Key) : a.Recomposes (s.loadEnded k) := h.mayEvaluate _ _
theorem keyReleased (k : Key) : a.Recomposes (s.keyReleased k) := h.mayEvaluate _ _
theorem keyCommitted (k : Key) : a.Recomposes (s.keyCommitted k) := (h.maySetNav (s.nav.lockedOn k) _).mayEvaluate _ _
theorem keyMoved (before after : Key) (shown : Bool) : a.Recomposes (s.keyMoved before after shown) :=
  ((h.maySetNav shown _).maySetNav _ _).mayEvaluate _ _

theorem tellReleased (keys : List Key) : a.Recomposes (s.tellReleased keys) := by
  induction keys generalizing s with
  | nil => exact h
  | cons k rest ih => exact ih (h.keyReleased k)

theorem showRule (p : List Byte) : a.Recomposes (showRule p s).1 := by
  unfold Machine.showRule
  split
  · split
    · exact h
    · split
      · exact h
      · exact (h.setNav _).wantPage _ _
  · exact h

theorem declineMiss : a.Recomposes s.declineMiss := by
  unfold State.declineMiss
  split
  · simp only
    split
    · exact ((h.setNav _).setNav _).tellCondition _
    · exact h.setNav _
  · exact h

theorem setNavigationRule (p : List Byte) : a.Recomposes (setNavigationRule p s).1 := by
  unfold Machine.setNavigationRule
  split
  · split
    · exact h
    · exact h.setNav _
  · exact h

theorem pageStep (next : BitVec 16 → BitVec 16) : a.Recomposes (s.pageStep next) := by
  unfold State.pageStep
  split
  · exact h
  · split_ifs
    · exact h
    · exact h
    · exact h.wantPage _ _

theorem seek : a.Recomposes s.seek := by
  unfold State.seek
  split
  · exact h
  · split
    · exact h
    · split
      · exact h.wantPage _ _
      · exact h

theorem markPress : a.Recomposes s.markPress := by
  unfold State.markPress
  split
  · exact h
  · simp only
    split
    · exact h
    · split
      · exact h
      · exact (h.setDir _).tellLines _ _

theorem pressKey (k : PatronKey) : a.Recomposes (s.pressKey k) := by
  cases k with
  | prev => exact (h.post _).pageStep _
  | next => exact (h.post _).pageStep _
  | mark => exact (h.post _).markPress
  | seek => exact (h.post _).seek
  | call => exact h.post _

theorem pressKeys (keys : List PatronKey) : a.Recomposes (s.pressKeys keys) := by
  induction keys generalizing s with
  | nil => exact h
  | cons k rest ih => exact ih (h.pressKey k)

theorem sample (down : Vector Bool 5) : a.Recomposes (s.sample down) := (h.setNav _).pressKeys _

/-! ### Entries and marks (R18 to R20, R52 to R55) -/

theorem patchCellsRule (p : List Byte) : a.Recomposes (patchCellsRule p s).1 := by
  unfold Machine.patchCellsRule
  split
  · split
    · split
      · split
        · exact h
        · exact (h.setDir _).tellLines _ _
      · exact h
    · exact h
  · exact h

theorem retireRule (p : List Byte) : a.Recomposes (retireRule p s).1 := by
  unfold Machine.retireRule
  split
  · split
    · split
      · exact h
      · exact h.setDir _
    · exact h
  · exact h

theorem setEntryRule (p : List Byte) : a.Recomposes (setEntryRule p s).1 := by
  unfold Machine.setEntryRule
  split
  · split
    · split
      · exact h
      · exact h.setDir _
    · exact h
  · exact h

theorem addMarkRule (p : List Byte) : a.Recomposes (addMarkRule p s).1 := by
  unfold Machine.addMarkRule
  split
  · split
    · split
      · exact h
      · simp only
        split_ifs
        · exact h
        · exact (h.setDir _).tellLines _ _
        · exact h
    · exact h
  · exact h

theorem dropMarksRule (p : List Byte) : a.Recomposes (dropMarksRule p s).1 := by
  unfold Machine.dropMarksRule
  split
  · split
    · split
      · exact h
      · simp only
        split
        · exact h
        · exact (h.setDir _).tellLines _ _
    · exact h
  · exact h

/-! ### Loads (R24 to R47) -/

theorem openLoadRule (p : List Byte) : a.Recomposes (openLoadRule p s).1 := by
  unfold Machine.openLoadRule
  split
  · exact h
  · split
    · exact h
    · split
      · exact h
      · split
        · exact h
        · exact (h.setDir _).setLoad _

theorem dropLoad (i : Fin 2) (r : LoadSlot) : a.Recomposes (s.dropLoad i r) := (h.setLoad _).setDir _
theorem storeWork (i : Fin 2) (w : StreamWork) : a.Recomposes (s.storeWork i w) := (h.setLoad _).setDir _
theorem fatalStream (i : Fin 2) (r : LoadSlot) (e : StreamError) (offset : Nat) :
    a.Recomposes (s.fatalStream i r e offset) := ((h.dropLoad i r).post _).loadEnded _

theorem takeCommit (i : Fin 2) (r : LoadSlot) : a.Recomposes (s.takeCommit i r).1 := by
  unfold State.takeCommit
  simp only
  split
  · exact ((h.setLoad _).setDir _).keyCommitted _
  · refine keyCommitted ?_ _
    split
    · exact ((h.setLoad _).setDir _).recompose _
    · exact (h.setLoad _).setDir _

theorem cancelLoadRule (p : List Byte) : a.Recomposes (cancelLoadRule p s).1 := by
  unfold Machine.cancelLoadRule
  split
  · split
    · exact h
    · split
      · exact h
      · exact (h.dropLoad _ _).loadEnded _
  · exact h

theorem dataRule (p : List Byte) : a.Recomposes (dataRule p s).1 := by
  unfold Machine.dataRule
  split
  · exact h
  · split
    · exact h
    · split
      · exact h
      · split
        · exact h
        · split
          · exact h
          · split
            · exact h.storeWork _ _
            · exact (h.storeWork _ _).fatalStream _ _ _ _

theorem commitRule (p : List Byte) : a.Recomposes (commitRule p s).1 := by
  unfold Machine.commitRule
  split
  · exact h
  · split
    · exact h
    · simp only
      split
      · exact h.setLoad _
      · exact (h.setLoad _).takeCommit _ _

theorem setControlCodesRule (p : List Byte) : a.Recomposes (setControlCodesRule p s).1 := by
  unfold Machine.setControlCodesRule
  split
  · exact h
  · simp only
    split_ifs
    · exact h
    · exact h
    · exact h.setLoad _

/-! ### Sweeps (R86 to R94) -/

theorem sweepRule (p : List Byte) : a.Recomposes (sweepRule p s).1 := by
  unfold Machine.sweepRule
  split
  · exact h
  · split
    · exact h
    · exact (h.setDir _).setSweep _

theorem abortSweepRule (p : List Byte) : a.Recomposes (abortSweepRule p s).1 := by
  unfold Machine.abortSweepRule
  split
  · exact h
  · exact (((h.setDir _).tellReleased _).post _).setSweep _

theorem visitHeld (r : SweepRun) (i : Fin 48) (k : Key) : a.Recomposes (s.visitHeld r i k).1 := by
  unfold State.visitHeld
  simp only
  split
  · split
    · exact (h.setDir _).keyReleased k
    · exact (h.setDir _).keyReleased k
  · split
    · exact (h.setDir _).keyReleased k
    · have applied : a.Recomposes (if (s.dir.entries[i].marks.filter r.descriptor.removes).map Mark.line = []
          then s.setDir (s.dir.visitApply i r.descriptor k)
          else (s.setDir (s.dir.visitApply i r.descriptor k)).tellLines i
            ((s.dir.entries[i].marks.filter r.descriptor.removes).map Mark.line)) := by
        split
        · exact h.setDir _
        · exact (h.setDir _).tellLines _ _
      split
      · exact applied.keyReleased k
      · exact applied.keyMoved _ _ _

theorem visitEntry (r : SweepRun) (i : Fin 48) : a.Recomposes (s.visitEntry r i).1 := by
  unfold State.visitEntry
  split
  · split
    · exact h.visitHeld r i _
    · exact h.setDir _
  · exact h

theorem sweepAdvance (r : SweepRun) : a.Recomposes (s.sweepAdvance r) := by
  unfold State.sweepAdvance
  split
  · exact h.setSweep _
  · exact (h.post _).setSweep _

/-! ### The status line, the blink timer and the notice mask (R105 to R108, R187) -/

theorem setStatus (on : Bool) (time : Nat) (text : Vector Byte 30) : a.Recomposes (s.setStatus on time text) := by
  have put : a.Recomposes (s.putStatus on time text) := h.setComp rfl
  have phased : a.Recomposes (s.putPhase on time text) := by
    unfold State.putPhase
    split
    · exact put
    · exact put.recompose _
  rw [State.setStatus_eq]
  split
  · exact phased.recompose _
  · exact phased

theorem setStatusRule (p : List Byte) : a.Recomposes (setStatusRule p s).1 := by
  unfold Machine.setStatusRule
  split
  · split
    · exact h
    · split
      · exact h.setStatus _ _ _
      · exact h
  · exact h

theorem setGlyphs (g : Glyphs) : a.Recomposes (s.setGlyphs g) := by
  have put : a.Recomposes (s.setComp { s.comp with glyphs := g }) := h.setComp rfl
  unfold State.setGlyphs
  simp only
  split
  · exact put.recompose _
  · exact put

theorem setNoticeMaskRule (p : List Byte) : a.Recomposes (setNoticeMaskRule p s).1 := by
  unfold Machine.setNoticeMaskRule
  split
  · split
    · exact h.setLink _
    · exact h
  · exact h

end State.Recomposes

/-! ### The rows -/

variable {s t : State}

/-- R181 to R183: taking a command forms its response after the rule. -/
theorem State.take_recomposes {code : Byte} {b : CommandBody} {owner : List Byte → State → State × Reply}
    (rule : ∀ p, s.Recomposes (owner p s).1) (taken : s.take code b owner = .next t) : s.Recomposes t := by
  rcases State.take_cases owner taken with ⟨-, -, rfl⟩ | ⟨-, -, rfl⟩ | ⟨-, rfl⟩
  · exact (rule b.payload).apart rfl
  · exact State.Recomposes.refl.apart rfl
  · exact .refl

theorem execTimeout_recomposes {slot : Fin 2} (e : execTimeout slot s = .next t) : s.Recomposes t := by
  unfold execTimeout at e
  split at e
  · cases e; exact .refl
  · split at e <;> cases e
    · exact .refl
    · exact State.Recomposes.refl.fatalStream _ _ _ _

theorem execSweepVisit_recomposes (e : execSweepVisit s = .next t) : s.Recomposes t := by
  unfold execSweepVisit at e
  split at e
  · cases e; exact .refl
  · split at e <;> cases e
    · exact .refl
    · exact (State.Recomposes.refl.visitEntry _ _).sweepAdvance _

/-- The rows of the drive, the calendar, the pin field and the touch zones, and the resets. -/
def worksPins : Instr → Bool
  | .setCalendar _ | .setDrive _ | .pauseDrive _ | .resumeDrive _ | .survey _ | .clearFaults _ | .setTouch _
  | .resetCommand _ | .powerOnReset | .pinReset | .zoneReading _ _ | .holdTimerExpiry _ | .refillUnitArrival
  | .strokeStart | .strokeCompletion _ | .supplyFall | .supplyRise => true
  | _ => false

/-- Every other row reaches the pin path only through recompositions. -/
theorem exec_recomposes {c : Instr} (other : worksPins c = false) (e : exec c s = .next t) : s.Recomposes t := by
  have here : s.Recomposes s := .refl
  cases c with
  | openLoad b => exact State.take_recomposes here.openLoadRule e
  | data b => exact State.take_recomposes here.dataRule e
  | commit b => exact State.take_recomposes here.commitRule e
  | cancelLoad b => exact State.take_recomposes here.cancelLoadRule e
  | setControlCodes b => exact State.take_recomposes here.setControlCodesRule e
  | queryEntry b => exact State.take_recomposes (fun p => by rw [queryEntryRule_state]; exact here) e
  | listEntries b => exact State.take_recomposes (fun p => by rw [listEntriesRule_state]; exact here) e
  | readRow b => exact State.take_recomposes (fun p => by rw [readRowRule_state]; exact here) e
  | readFaults b => exact State.take_recomposes (fun _ => here) e
  | readStatus b => exact State.take_recomposes (fun _ => here) e
  | patchCells b => exact State.take_recomposes here.patchCellsRule e
  | retire b => exact State.take_recomposes here.retireRule e
  | setEntry b => exact State.take_recomposes here.setEntryRule e
  | addMark b => exact State.take_recomposes here.addMarkRule e
  | dropMarks b => exact State.take_recomposes here.dropMarksRule e
  | sweep b => exact State.take_recomposes here.sweepRule e
  | abortSweep b => exact State.take_recomposes here.abortSweepRule e
  | showKey b => exact State.take_recomposes here.showRule e
  | declineMiss b => exact State.take_recomposes (fun _ => here.declineMiss) e
  | setNavigation b => exact State.take_recomposes here.setNavigationRule e
  | setStatus b => exact State.take_recomposes here.setStatusRule e
  | setGlyphs b => exact State.take_recomposes (fun _ => here.setGlyphs _) e
  | setNoticeMask b => exact State.take_recomposes here.setNoticeMaskRule e
  | resetPinAsserted => cases e; exact here.apart rfl
  | unknownCommand code b => exact outcome_of_ite (here.setLink _) here e
  | keySample prev next mark seek call => exact outcome_of_ite here (here.sample _) e
  | blinkTimerExpiry =>
    have flipped : s.Recomposes (s.setComp { s.comp with blinkOn := !s.comp.blinkOn }) := here.setComp rfl
    exact outcome_of_ite here (flipped.recompose _) e
  | timeout slot => exact execTimeout_recomposes e
  | sweepVisit => exact execSweepVisit_recomposes e
  | writeCommand shown bytes => obtain ⟨x, rfl⟩ := exec_transaction rfl e; exact here.setLink x
  | readResponse clocked => obtain ⟨x, rfl⟩ := exec_transaction rfl e; exact here.setLink x
  | readNotice clocked => obtain ⟨x, rfl⟩ := exec_transaction rfl e; exact here.setLink x
  | statusOnlyTransaction code clocked => obtain ⟨x, rfl⟩ := exec_transaction rfl e; exact here.setLink x
  | _ => cases other

end Sys2Proof.Machine
end

section
/-! SUPPORT. A predicate that the single moves of the calendar keep is kept by the visits of one event, by forming a waiting
plan again, and by a completion (R142, R155 to R165). -/

namespace Sys2Proof.Machine

/-- A row without a move leaves the drive with no plan. -/
theorem State.askDrive_free {s t : State} {r : Fin 128} (asked : s.askDrive r = (t, false)) : t.drive.cond = .noPlan := by
  by_cases none : s.planMoves r = []
  · rw [State.askDrive_noMove none] at asked
    cases asked
    rfl
  · rw [State.askDrive_moves none rfl] at asked
    cases asked

theorem State.enterIdle_drive (s : State) : s.enterIdle.drive = s.drive := State.post_drive _ _

theorem State.endVisit_drive (s : State) (v : LineVisit) : (s.endVisit v).1.drive = s.drive := by
  unfold State.endVisit
  simp only
  generalize (if v.started then s.cal.quiet else joinQuiet s.cal.quiet v.line) = quiet
  split
  · exact State.enterIdle_drive _
  · rfl

theorem State.rowDone_drive (s : State) (v : LineVisit) : (s.rowDone v).1.drive = s.drive := by
  unfold State.rowDone
  split
  · exact State.endVisit_drive s v
  · rfl

/-- R159: visits go on only while the scheduler stays as it is. -/
theorem State.endVisit_sched {s : State} {v : LineVisit} (goes : (s.endVisit v).2 = true) :
    (s.endVisit v).1.cal.sched = s.cal.sched := by
  unfold State.endVisit at goes ⊢
  simp only at goes ⊢
  generalize (if v.started then s.cal.quiet else joinQuiet s.cal.quiet v.line) = quiet at goes ⊢
  split
  · rename_i settles; rw [if_pos settles] at goes; cases goes
  · exact (Calendar.passTurn_frame _).2.2.1

theorem State.rowDone_sched {s : State} {v : LineVisit} (goes : (s.rowDone v).2 = true) :
    (s.rowDone v).1.cal.sched = s.cal.sched := by
  unfold State.rowDone at goes ⊢
  split
  · rename_i last; rw [if_pos last] at goes; exact State.endVisit_sched goes
  · rfl

theorem PinPath.countStroke (s : State) (v : LineVisit) (work : s.cal.sched.atWork = true) :
    PinPath s (s.countStroke v).1 := by
  unfold State.countStroke
  split
  · exact .setCal rfl rfl (.inl rfl)
  · exact .rowDone s v work

/-- The scheduler passes from a state of work or rest to another while the drive holds no plan. -/
def State.MaySwitch (s : State) (x : Scheduler) : Prop :=
  s.drive.cond = .noPlan ∧ s.cal.sched ≠ .supplyLow ∧ x ≠ .supplyLow

/-- What the single moves keep: the calendar changes and its scheduler stays, or may switch; DRIVE or SETTLE is posted; a stroke
is asked for by a scheduler that may ask for it. -/
structure KeptByMoves (P : State → Prop) : Prop where
  setCal : ∀ {s : State} {x : Calendar}, P s → x.sched = s.cal.sched ∨ s.MaySwitch x.sched → P (s.setCal x)
  post : ∀ {s : State} {n : Notice}, n.kindCode = 8 ∨ n.kindCode = 9 → P s → P (s.post n)
  askDrive : ∀ {s : State} (r : Fin 128), P s → s.cal.sched = .driving → P (s.askDrive r).1
  askSurvey : ∀ {s : State} (r : Fin 128), P s → s.cal.sched = .surveying → P (s.askSurvey r)

namespace KeptByMoves

variable {P : State → Prop} (kept : KeptByMoves P) {s : State}

include kept

/-! ### The visits (R155 to R160) -/

theorem enterIdle (h : P s) (driving : s.cal.sched = .driving) (free : s.drive.cond = .noPlan) : P s.enterIdle :=
  kept.post (.inr rfl) (kept.setCal h (.inr ⟨free, by rw [driving]; nofun, nofun⟩))

theorem endVisit (h : P s) (driving : s.cal.sched = .driving) (free : s.drive.cond = .noPlan) (v : LineVisit) :
    P (s.endVisit v).1 := by
  unfold State.endVisit
  simp only
  generalize (if v.started then s.cal.quiet else joinQuiet s.cal.quiet v.line) = quiet
  have same := (Calendar.passTurn_frame { s.cal with visit := none, quiet := quiet }).2.2.1
  have passed : P (s.setCal (Calendar.passTurn { s.cal with visit := none, quiet := quiet })) := kept.setCal h (.inl same)
  split
  · exact kept.enterIdle passed (same.trans driving) free
  · exact passed

theorem rowDone (h : P s) (driving : s.cal.sched = .driving) (free : s.drive.cond = .noPlan) (v : LineVisit) :
    P (s.rowDone v).1 := by
  unfold State.rowDone
  split
  · exact kept.endVisit h driving free v
  · exact kept.setCal h (.inl rfl)

theorem calendarMove (h : P s) (driving : s.cal.sched = .driving) : P s.calendarMove.1 := by
  unfold State.calendarMove
  split
  · exact kept.setCal h (.inl rfl)
  · rename_i v _
    have asked := kept.askDrive (pinRow v.line v.row) h driving
    split
    · rename_i t e; rwa [e] at asked
    · rename_i t e
      rw [e] at asked
      have same : t.cal.sched = .driving := by rw [(State.askDrive_none e).1, driving]
      exact kept.rowDone asked same (State.askDrive_free e) v

omit kept in
theorem calendarMove_sched (goes : s.calendarMove.2 = true) : s.calendarMove.1.cal.sched = s.cal.sched := by
  unfold State.calendarMove at goes ⊢
  split
  · rfl
  · rename_i v visit
    simp only [visit] at goes
    split
    · rename_i t e; rw [e] at goes; cases goes
    · rename_i t e
      rw [e] at goes
      rw [State.rowDone_sched goes, (State.askDrive_none e).1]

theorem runCalendar (n : Nat) (h : P s) (driving : s.cal.sched = .driving) : P (State.runCalendar n s) := by
  induction n generalizing s with
  | zero => exact h
  | succ n ih =>
    have moved := kept.calendarMove h driving
    have still := calendarMove_sched (s := s)
    unfold State.runCalendar
    split
    · rename_i t e
      rw [e] at moved still
      exact ih moved ((still rfl).trans driving)
    · rename_i t e; rwa [e] at moved

theorem goOn {r : State × Bool} (h : P r.1) (driving : r.2 = true → r.1.cal.sched = .driving) : P (State.goOn r) := by
  obtain ⟨t, b⟩ := r
  cases b
  · exact h
  · exact kept.runCalendar _ h (driving rfl)

theorem driveOn (h : P (s.setCal { s.cal with sched := .driving, quiet := [] })) : P s.driveOn :=
  kept.runCalendar _ h rfl

theorem wake (h : P s) (idle : s.cal.sched = .idle → P (s.setCal { s.cal with sched := .driving, quiet := [] })) :
    P s.wake := by
  unfold State.wake
  split
  · exact kept.setCal h (.inl rfl)
  · rename_i rests; exact kept.driveOn (idle rests)
  · exact h

theorem rowNothing (h : P s) (free : s.drive.cond = .noPlan) : P s.rowNothing := by
  unfold State.rowNothing
  split
  · rename_i v driving _
    exact kept.goOn (kept.rowDone h driving free v) fun goes => (State.rowDone_sched goes).trans driving
  · rename_i driving _; exact kept.runCalendar _ h driving
  · exact h

/-! ### Forming a waiting plan again (R142) -/

theorem reform {rows : Fin 128 → Bool}
    (asked : ∀ p, s.drive.cond = .waitCharge p → p.kind = .drive → rows p.row = true → P (s.askDrive p.row).1)
    (still : (∀ p, s.drive.cond = .waitCharge p → p.kind = .drive → rows p.row = false) → P s) : P (s.reform rows) := by
  by_cases told : ∃ p, s.drive.cond = .waitCharge p ∧ p.kind = .drive ∧ rows p.row = true
  · obtain ⟨p, waits, drive, named⟩ := told
    have formed := asked p waits drive named
    simp only [State.reform, waits, drive, named, and_self, if_true]
    split
    · rename_i t e; rwa [e] at formed
    · rename_i t e; rw [e] at formed; exact kept.rowNothing formed (State.askDrive_free e)
  · have untold : ∀ p, s.drive.cond = .waitCharge p → p.kind = .drive → rows p.row = false := fun p waits drive =>
      Bool.eq_false_iff.mpr fun named => told ⟨p, waits, drive, named⟩
    rw [State.reform_elsewhere untold]
    exact still untold

/-! ### Surveys and completions (R158, R161 to R165) -/

theorem requestSurvey (h : P s) (surveying : s.cal.sched = .surveying) : P s.requestSurvey := by
  unfold State.requestSurvey
  split
  · exact kept.askSurvey _ h surveying
  · exact h

/-- R164, R165: the scheduler takes its work up from a state that lets it. -/
theorem takeUp {announce : State → State} (announced : ∀ {u}, P u → P (announce u))
    (sched : ∀ u, (announce u).cal = u.cal) (surveying : P (s.setCal { s.cal with sched := .surveying }))
    (driving : P (s.setCal { s.cal with sched := .driving }))  : P (s.takeUp announce) := by
  unfold State.takeUp
  split
  · exact kept.requestSurvey (announced surveying) (by rw [sched]; rfl)
  · exact kept.driveOn (kept.setCal (announced driving) (.inl (by rw [sched]; rfl)))

theorem countStroke (h : P s) (driving : s.cal.sched = .driving) (free : s.drive.cond = .noPlan) (v : LineVisit) :
    P (s.countStroke v).1 := by
  unfold State.countStroke
  split
  · exact kept.setCal h (.inl rfl)
  · exact kept.rowDone h driving free v

omit kept in
theorem countStroke_drive (v : LineVisit) : (s.countStroke v).1.drive = s.drive := by
  unfold State.countStroke
  split
  · rfl
  · exact State.rowDone_drive s v

omit kept in
theorem countStroke_sched {v : LineVisit} (goes : (s.countStroke v).2 = true) :
    (s.countStroke v).1.cal.sched = s.cal.sched := by
  unfold State.countStroke at goes ⊢
  split
  · rfl
  · rename_i last; rw [if_neg last] at goes; exact State.rowDone_sched goes

/-- R158, R163: under the hold flag the scheduler pauses after the count, and otherwise it goes on. -/
theorem completeDriving (h : P s) (driving : s.cal.sched = .driving) (free : s.drive.cond = .noPlan) :
    P s.completeDriving := by
  unfold State.completeDriving
  split
  · rename_i v _
    have counted := kept.countStroke h driving free v
    simp only
    split
    · refine kept.setCal counted (.inr ⟨by rw [countStroke_drive, free], fun low => ?_, nofun⟩)
      have work := (PinPath.countStroke s v (by rw [driving]; rfl)).atWork (by rw [driving]; rfl)
      rw [low] at work
      cases work
    · exact kept.goOn counted fun goes => (countStroke_sched goes).trans driving
  · simp only
    split
    · exact kept.setCal h (.inr ⟨free, by rw [driving]; nofun, nofun⟩)
    · exact kept.runCalendar _ h driving

theorem completeSurveying (h : P s) (surveying : s.cal.sched = .surveying) (free : s.drive.cond = .noPlan) :
    P s.completeSurveying := by
  have switch : ∀ x, x ≠ .supplyLow → P (s.setCal { s.cal with sched := x }) := fun x powered =>
    kept.setCal h (.inr ⟨free, by rw [surveying]; nofun, powered⟩)
  unfold State.completeSurveying
  split
  · split
    · exact switch .paused nofun
    · exact kept.requestSurvey h surveying
  · split
    · exact kept.post (.inl rfl) (switch .paused nofun)
    · exact kept.driveOn (kept.setCal (kept.post (.inl rfl) (switch .driving nofun)) (.inl (by simp)))

/-- R145: the Row Calendar is told of a completion. -/
theorem strokeDone (h : P s) (free : s.drive.cond = .noPlan) : P s.strokeDone := by
  unfold State.strokeDone
  split
  · exact kept.completeDriving h (by assumption) free
  · exact kept.completeSurveying h (by assumption) free
  · exact h

end KeptByMoves
end Sys2Proof.Machine
end

section
/-! SUPPORT. Which pins the drive stroke in flight pulses: unless it was in flight before the row, it has been formed or started
from pins that may be given a pulse (R123, R137, R139, R141). -/

namespace Sys2Proof.Machine

/-- What decides whether a pin may be given a pulse. -/
def State.pulsable (s : State) : Vector Bool 128 × List FaultRecord × Vector ZoneState 16 :=
  (s.pins.known, s.pins.faults, Vector.ofFn fun z => s.touch.zones[z].state)

theorem State.pulsable_eq {s t : State} (known : t.pins.known = s.pins.known) (faults : t.pins.faults = s.pins.faults)
    (zones : ∀ z : Fin 16, t.touch.zones[z].state = s.touch.zones[z].state) : t.pulsable = s.pulsable := by
  rw [State.pulsable, known, faults, funext zones, State.pulsable]

theorem PinPath.pulsable {s t : State} (h : PinPath s t) : t.pulsable = s.pulsable :=
  State.pulsable_eq (by rw [h.pins]) (by rw [h.pins]) fun z => by rw [h.zones z]

/-- A scheduler in SURVEYING stays there along the pin path. -/
theorem PinPath.sched_surveying {s t : State} (h : PinPath s t) (surveying : s.cal.sched = .surveying) :
    t.cal.sched = .surveying := by
  rcases h.sched with same | ⟨work, -⟩
  · exact same.trans surveying
  · rw [surveying] at work; cases work

section
variable {s t : State}

theorem State.MayPulse.congr {r : Fin 128} {c : Fin 80} (same : t.pulsable = s.pulsable) (h : s.MayPulse r c) :
    t.MayPulse r c := by
  simp only [State.pulsable, Prod.mk.injEq] at same
  obtain ⟨known, faults, zones⟩ := same
  have zone : t.touch.zones[zoneOfPin r c].state = s.touch.zones[zoneOfPin r c].state := by
    simpa using congrArg (fun v : Vector ZoneState 16 => v[zoneOfPin r c]) zones
  rwa [State.MayPulse, known, faults, zone]

/-- R137, R138: a plan that is formed moves strokable candidates. -/
theorem State.planMoves_strokable {r : Fin 128} {m : Move} (mem : m ∈ s.planMoves r) : s.Strokable r m.col := by
  obtain ⟨c, chosen, rfl⟩ := List.mem_map.mp mem
  obtain ⟨k, -, chosen⟩ := List.mem_flatMap.mp chosen
  rw [State.bankChoice, List.mem_append] at chosen
  refine (State.strokable_getLsbD s r c).mp ?_
  rcases chosen with first | second
  · exact (List.mem_filter.mp (List.mem_of_mem_take first)).2
  · have beyond := (List.mem_filter.mp (List.mem_of_mem_take second)).1
    exact (List.mem_filter.mp (List.mem_of_mem_drop beyond)).2

/-- The moves of a drive stroke in flight are at pins that may be given a pulse, unless the drive was as it is in `old`. -/
def State.PulsesSince (old : DriveCondition) (s : State) : Prop :=
  ∀ p, s.drive.cond = .inFlight p → p.kind = .drive → old = .inFlight p ∨ ∀ m ∈ p.moves, s.MayPulse p.row m.col

/-- R171, steps 2 to 4: the zone's CURSOR lines are composed, a plan that waits in its band is formed again, and the Row
Calendar is woken. -/
def State.zoneWoken (s : State) (z : Fin 16) : State :=
  ((s.recompose (s.zoneLines z)).reform fun r => bandOfRow r == bandOfZone z).wake

/-- R171, step 5: then a follow slot's cursor moves with the reading band, and TOUCH is posted. -/
theorem State.zoneChanged_woken (s : State) (z : Fin 16) (bandChanged : Bool) : s.zoneChanged z bandChanged =
    (if bandChanged then (s.zoneWoken z).setCal ((s.zoneWoken z).cal.followBand (s.zoneWoken z).touch.band)
      else s.zoneWoken z).postTouch := by
  simp only [State.zoneChanged, State.zoneWoken]

namespace State.PulsesSince

variable {old : DriveCondition}

theorem still (same : s.drive.cond = old) : s.PulsesSince old := fun _ flies _ => .inl (same.symm.trans flies)

theorem grounded (idle : ∀ p, s.drive.cond = .inFlight p → p.kind ≠ .drive) : s.PulsesSince old :=
  fun p flies drive => absurd drive (idle p flies)

theorem free (noPlan : s.drive.cond = .noPlan) : s.PulsesSince old := grounded fun p flies => by
  rw [noPlan] at flies; cases flies

theorem congr (h : s.PulsesSince old) (same : t.pulsable = s.pulsable) (cond : t.drive.cond = s.drive.cond) :
    t.PulsesSince old := fun p flies drive =>
  (h p (cond.symm.trans flies) drive).imp_right fun may m mem => (may m mem).congr same

theorem setCal (h : s.PulsesSince old) (x : Calendar) : (s.setCal x).PulsesSince old := h.congr rfl rfl

theorem post (h : s.PulsesSince old) (n : Notice) : (s.post n).PulsesSince old :=
  h.congr (State.pulsable_eq (by simp) (by simp) fun z => by rw [State.post_touch]) (by rw [State.post_drive])

/-- R139: a stroke that is asked for moves strokable candidates. -/
theorem askDrive (s : State) (r : Fin 128) : (s.askDrive r).1.PulsesSince old := by
  by_cases none : s.planMoves r = []
  · rw [State.askDrive_noMove none]
    exact free rfl
  · have path := PinPath.askDrive s r
    intro p flies _
    rw [State.askDrive_moves none rfl] at flies path ⊢
    simp only at flies path ⊢
    split at flies
    · cases flies
      exact .inr fun m mem => (State.planMoves_strokable mem).1.congr path.pulsable
    · cases flies

theorem askSurvey (s : State) (r : Fin 128) : (s.askSurvey r).PulsesSince old := by
  refine grounded fun p flies => ?_
  unfold State.askSurvey State.holdPlan at flies
  split at flies <;> cases flies
  nofun

theorem keptByMoves (old : DriveCondition) : KeptByMoves (State.PulsesSince old) where
  setCal h _ := h.setCal _
  post _ h := h.post _
  askDrive r _ _ := askDrive _ r
  askSurvey r _ _ := askSurvey _ r

/-! ### Operations that several rows share -/

theorem reform (h : s.PulsesSince old) (rows : Fin 128 → Bool) : (s.reform rows).PulsesSince old :=
  (keptByMoves old).reform (fun _ _ _ _ => askDrive s _) fun _ => h

theorem wake (h : s.PulsesSince old) : s.wake.PulsesSince old := (keptByMoves old).wake h fun _ => h.setCal _

theorem recompose (h : s.PulsesSince old) (lines : List (Fin 32)) : (s.recompose lines).PulsesSince old := by
  have put : (s.composed lines).PulsesSince old := h.congr (State.pulsable_eq rfl rfl fun _ => rfl) rfl
  rw [State.recompose_eq]
  split
  · exact put
  · exact (put.reform _).wake

theorem recomposes (h : s.PulsesSince old) (path : s.Recomposes t) : t.PulsesSince old := by
  induction path with
  | refl => exact h
  | apart _ same ih =>
    simp only [State.pinBlocks, Prod.mk.injEq] at same
    obtain ⟨pins, -, drive, -, touch⟩ := same
    exact ih.congr (by rw [State.pulsable, pins, touch, State.pulsable]) (by rw [drive])
  | recompose _ lines ih => exact ih.recompose lines

theorem takeUp {announce : State → State} (announced : ∀ {u : State}, u.PulsesSince old → (announce u).PulsesSince old)
    (sched : ∀ u, (announce u).cal = u.cal) (h : s.PulsesSince old) : (s.takeUp announce).PulsesSince old :=
  (keptByMoves old).takeUp announced sched (h.setCal _) (h.setCal _)

/-- R141: a waiting plan that is fresh starts. -/
theorem startIfCharged (fresh : ∀ p, s.drive.cond = .waitCharge p → p.kind = .drive → ∀ m ∈ p.moves, s.MayPulse p.row m.col)
    (h : s.PulsesSince old) : s.startIfCharged.PulsesSince old := by
  unfold State.startIfCharged
  split
  · rename_i p waits
    split
    · intro q flies drive
      cases flies
      exact .inr fun m mem => (fresh p waits drive m mem).congr (PinPath.startStroke s p).pulsable
    · exact h
  · exact h

/-- R168 to R171: whatever a zone takes, the strokes asked for after it go by its new state. -/
theorem zoneTakes (s : State) (z : Fin 16) (r : Zone × Bool) : (s.zoneTakes z r).PulsesSince s.drive.cond := by
  have told : ∀ (u : State) (b : Bool), u.drive.cond = s.drive.cond → (u.zoneChanged z b).PulsesSince s.drive.cond := by
    intro u b same
    have woken : (u.zoneWoken z).PulsesSince s.drive.cond :=
      (((still same).recompose (u.zoneLines z)).reform fun r => bandOfRow r == bandOfZone z).wake
    rw [State.zoneChanged_woken]
    refine post ?_ _
    split
    · exact woken.setCal _
    · exact woken
  unfold State.zoneTakes
  simp only
  split
  · split
    · exact told _ _ rfl
    · exact told _ _ rfl
  · exact still rfl

end State.PulsesSince
end

/-! ### The rows -/

section
variable {s t : State}

/-- The rules of the drive's and the pin field's own commands. -/
theorem setCalendarRule_pulses (p : List Byte) (s : State) : (setCalendarRule p s).1.PulsesSince s.drive.cond := by
  unfold setCalendarRule
  split
  · exact .still rfl
  · simp only
    split <;> exact .still rfl

theorem setDriveRule_pulses (p : List Byte) (s : State) : (setDriveRule p s).1.PulsesSince s.drive.cond := by
  unfold setDriveRule
  split
  · split
    · exact .reform (.still rfl) _
    · exact .still rfl
  · exact .still rfl

theorem setTouchRule_pulses (p : List Byte) (s : State) : (setTouchRule p s).1.PulsesSince s.drive.cond := by
  unfold setTouchRule
  split
  · split <;> exact .still rfl
  · exact .still rfl

theorem clearFaultsRule_pulses (p : List Byte) (s : State) : (clearFaultsRule p s).1.PulsesSince s.drive.cond := by
  unfold clearFaultsRule
  split
  · split
    · exact .still rfl
    · unfold State.clearFaults
      simp only
      split
      · exact .still rfl
      · exact .wake (.reform (.still rfl) _)
  · exact .still rfl

theorem State.pauseDrive_pulses (s : State) : s.pauseDrive.PulsesSince s.drive.cond := by
  unfold State.pauseDrive
  cases s.cal.sched with
  | surveying | driving =>
    simp only
    split
    · exact .still rfl
    · exact .free rfl
  | idle | paused | supplyLow => exact .still rfl

theorem State.resumeDrive_pulses (s : State) : s.resumeDrive.PulsesSince s.drive.cond := by
  unfold State.resumeDrive
  cases s.cal.sched with
  | paused => exact .takeUp id (fun _ => rfl) (.still rfl)
  | idle => exact .wake (.still rfl)
  | surveying | driving | supplyLow => exact .still rfl

theorem State.surveyAll_pulses (s : State) : s.surveyAll.PulsesSince s.drive.cond := by
  have kept := State.PulsesSince.keptByMoves s.drive.cond
  unfold State.surveyAll
  cases s.cal.sched with
  | driving =>
    simp only
    generalize entered : (s.setPins s.pins.allUnknown).setCal { (s.setPins s.pins.allUnknown).cal with
      sched := .surveying } = u
    have still : u.PulsesSince s.drive.cond := .still (by subst entered; rfl)
    have surveying : (u.reform fun _ => true).cal.sched = .surveying :=
      (PinPath.reform u _).sched_surveying (by subst entered; rfl)
    split
    · exact still.reform _
    · exact kept.requestSurvey (still.reform _) surveying
  | idle => exact kept.requestSurvey (.still rfl) rfl
  | surveying | paused | supplyLow => exact .still rfl

theorem State.supplyBack_pulses (s : State) : s.supplyBack.PulsesSince s.drive.cond := by
  unfold State.supplyBack
  simp only
  split
  · exact .post (.still rfl) _
  · exact .takeUp (fun h => h.post _) (fun u => State.postDrive_cal u) (.still rfl)

theorem State.take_pulses {code : Byte} {b : CommandBody} {owner : List Byte → State → State × Reply}
    (rule : ∀ p, (owner p s).1.PulsesSince s.drive.cond) (taken : s.take code b owner = .next t) :
    t.PulsesSince s.drive.cond := by
  rcases State.take_cases owner taken with ⟨-, -, rfl⟩ | ⟨-, -, rfl⟩ | ⟨-, rfl⟩
  · exact (rule b.payload).congr rfl rfl
  · exact .still rfl
  · exact .still rfl

/-- R150: a reset leaves no drive stroke in flight. -/
theorem State.resetBlocks_pulses (s : State) (kind : ResetKind) (old : DriveCondition) :
    (s.resetBlocks kind).PulsesSince old := by
  refine .grounded fun p flies => ?_
  replace flies : (Drive.afterReset s.supplyPin).cond = .inFlight p := flies
  cases supply : s.supplyPin <;> rw [supply] at flies <;> cases flies

/-- R145: after a completion every stroke in flight is one that the Row Calendar has asked for since. -/
theorem execStrokeCompletion_pulses {sensed : PinRow} {p : Plan} (awake : s.resetPin = false)
    (flies : s.drive.cond = .inFlight p) (e : execStrokeCompletion sensed s = .next t) (old : DriveCondition) :
    t.PulsesSince old := by
  simp only [execStrokeCompletion, awake, flies] at e
  cases e
  exact (State.PulsesSince.keptByMoves old).strokeDone (.free rfl) rfl

/-- What a row leaves in flight, given that a drive plan that waits is fresh. -/
theorem exec_pulses (fresh : ∀ p, s.drive.cond = .waitCharge p → p.kind = .drive → ∀ m ∈ p.moves, s.MayPulse p.row m.col)
    {c : Instr} (e : exec c s = .next t) : t.PulsesSince s.drive.cond := by
  have still : s.PulsesSince s.drive.cond := .still rfl
  cases works : worksPins c with
  | false => exact still.recomposes (exec_recomposes works e)
  | true =>
    cases c with
    | setCalendar b => exact State.take_pulses (fun p => setCalendarRule_pulses p s) e
    | setDrive b => exact State.take_pulses (fun p => setDriveRule_pulses p s) e
    | setTouch b => exact State.take_pulses (fun p => setTouchRule_pulses p s) e
    | clearFaults b => exact State.take_pulses (fun p => clearFaultsRule_pulses p s) e
    | pauseDrive b => exact State.take_pulses (fun _ => s.pauseDrive_pulses) e
    | resumeDrive b => exact State.take_pulses (fun _ => s.resumeDrive_pulses) e
    | survey b => exact State.take_pulses (fun _ => s.surveyAll_pulses) e
    | resetCommand b => exact State.take_pulses (fun _ => s.resetBlocks_pulses .command _) e
    | powerOnReset => cases e; exact s.resetBlocks_pulses .powerOn _
    | pinReset => cases e; exact State.resetBlocks_pulses _ .pin _
    | zoneReading zone count => exact outcome_of_ite still (.zoneTakes s zone _) e
    | holdTimerExpiry zone => exact outcome_of_ite still (.zoneTakes s zone (_, true)) e
    | refillUnitArrival =>
      have filled : ∀ level, (s.setDrive { s.drive with level := level }).startIfCharged.PulsesSince s.drive.cond :=
        fun _ => .startIfCharged (fun p waits drive m mem => (fresh p waits drive m mem).congr rfl) (.still rfl)
      exact outcome_of_ite still (filled _) e
    | strokeStart => exact outcome_of_ite still (still.startIfCharged fresh) e
    | strokeCompletion sensed =>
      cases asleep : s.resetPin with
      | true => simp only [exec, execStrokeCompletion, asleep] at e; cases e; exact still
      | false =>
        cases cond : s.drive.cond with
        | inFlight p => exact execStrokeCompletion_pulses asleep cond e _
        | noPlan | waitCharge p => simp only [exec, execStrokeCompletion, asleep, cond] at e; cases e; exact cond ▸ still
    | supplyFall =>
      have lost : ∀ u : State, u.supplyLost.PulsesSince s.drive.cond := fun u =>
        .free (congrArg Drive.cond (State.postDrive_drive _))
      have low : ({ s with supplyPin := .low } : State).PulsesSince s.drive.cond := .still rfl
      exact outcome_of_ite low (lost _) e
    | supplyRise =>
      have ok : ({ s with supplyPin := .ok } : State).PulsesSince s.drive.cond := .still rfl
      exact outcome_of_ite ok (State.supplyBack_pulses { s with supplyPin := .ok }) e
    | _ => cases works

end
end Sys2Proof.Machine

section
open Sys2Proof Sys2Proof.Machine

/-- Settles O59: a drive stroke that starts in a step has been formed from strokable candidates in it, or has waited as a fresh
plan; a completion lets go of the stroke before. -/
theorem noPulseWhereNoneMayBeGiven : Obligations.NoPulseWhereNoneMayBeGiven := by
  rintro s t p ⟨-, -, -, -, fresh⟩ e flies drive starts
  have waits : ∀ q, s.drive.cond = .waitCharge q → q.kind = .drive → ∀ m ∈ q.moves, s.MayPulse q.row m.col :=
    fun q waits drive m mem => ((fresh q (by rw [waits]; rfl) drive).2 m mem).1
  cases pending : s.pending with
  | nil =>
    simp only [step, pending] at e
    cases e
    rcases starts with other | ⟨_, _, some, -⟩
    · exact absurd flies other
    · rw [pending] at some; cases some
  | cons c rest =>
    simp only [step, pending] at e
    have pulses : t.PulsesSince s.drive.cond := exec_pulses (s := { s with pending := rest }) waits e
    rcases pulses p flies drive with before | may
    · rcases starts with other | ⟨sensed, rest', first, awake⟩
      · exact absurd before other
      · rw [pending] at first
        cases first
        have since : t.PulsesSince .noPlan :=
          execStrokeCompletion_pulses (s := { s with pending := rest }) awake before e .noPlan
        exact (since p flies drive).resolve_left nofun
    · exact may

end
end

section
/-! SUPPORT. CLEAR FAULTS: the selectors, and the records and attempt counts that are removed (R129, R130). -/

namespace Sys2Proof.Machine

/-! ### The selectors (R129) -/

theorem readSelector_bad {sel row col : Byte}
    (bad : 2 ≤ sel.toNat ∨ (sel = 0 ∧ (128 ≤ row.toNat ∨ 80 ≤ col.toNat))) : readSelector sel row col = none := by
  rcases bad with large | ⟨rfl, outside⟩
  · have notAll : sel ≠ 1 := fun all => by subst all; exact absurd large (by decide)
    have notPin : sel ≠ 0 := fun pin => by subst pin; exact absurd large (by decide)
    rw [readSelector, if_neg notAll, if_neg notPin]
  · rcases outside with below | right
    · simp [readSelector, readBelow_none row below]
    · simp [readSelector, readBelow_none col right]

/-- A selection reads as the selector of its records. -/
theorem readSelector_selects {sel row col : Byte} {chosen : FaultRecord → Bool}
    (choice : (sel = 1 ∧ ∀ f, chosen f = true) ∨ (sel = 0 ∧ row.toNat < 128 ∧ col.toNat < 80 ∧
      ∀ f, chosen f = true ↔ f.row.val = row.toNat ∧ f.col.val = col.toNat)) :
    ∃ x : FaultSelector, readSelector sel row col = some x ∧ x.selects = chosen := by
  rcases choice with ⟨rfl, all⟩ | ⟨rfl, below, left, pin⟩
  · exact ⟨.all, rfl, funext fun f => (all f).symm⟩
  · refine ⟨.pin ⟨row.toNat, below⟩ ⟨col.toNat, left⟩, by simp [readSelector, readBelow, below, left], funext fun f => ?_⟩
    rw [Bool.eq_iff_iff, pin f]
    simp [FaultSelector.selects, Fin.ext_iff]

/-! ### The records and the counts (R130) -/

theorem pinIndex_eq_iff {r r' : Fin 128} {c c' : Fin 80} : pinIndex r c = pinIndex r' c' ↔ r = r' ∧ c = c' := by
  simp only [pinIndex, Fin.ext_iff]
  omega

section
variable {p : PinField} {x : FaultSelector}

/-- R130: the counts of the removed records' pins become 0, and the others stay. -/
theorem PinField.clear_attempt (canonical : storeWf 0 p.attempts = true) (r : Fin 128) (c : Fin 80) :
    (p.clear x).attempt r c = if ∃ f ∈ p.faults.filter x.selects, f.row = r ∧ f.col = c then 0 else p.attempt r c := by
  rw [PinField.attempt, PinField.clear, storeRead_storeDrop 0 _ _ _ canonical]
  simp only [List.any_eq_true, beq_iff_eq, pinIndex_eq_iff]
  rfl

theorem PinField.clear_none (none : p.faults.filter x.selects = []) : p.clear x = p := by
  have kept : p.faults.filter (fun f => !x.selects f) = p.faults :=
    List.filter_eq_self.mpr fun f mem => by simpa using List.filter_eq_nil_iff.mp none f mem
  rw [PinField.clear, none, kept, storeDrop_none p.attempts (p := fun _ => List.any [] _) fun _ => rfl]

end

section
variable {s : State} {x : FaultSelector}

theorem State.clearFaults_none (none : s.pins.faults.filter x.selects = []) : s.clearFaults x = s := by
  rw [State.clearFaults, none]
  exact if_pos rfl

theorem State.clearFaults_some (some : s.pins.faults.filter x.selects ≠ []) : s.clearFaults x =
    ((s.setPins (s.pins.clear x)).reform fun r => decide (∃ f ∈ s.pins.faults.filter x.selects, f.row = r)).wake := by
  have rows : (fun r => (s.pins.faults.filter x.selects).any fun f => f.row == r) =
      fun r => decide (∃ f ∈ s.pins.faults.filter x.selects, f.row = r) := funext fun r => by
    rw [Bool.eq_iff_iff]; simp [and_assoc]
  rw [← rows]
  exact if_neg some

/-- R124, R130: the Planner and the calendar follow, and leave the pin field as it is. -/
theorem State.clearFaults_follows (s : State) (x : FaultSelector) :
    PinPath (s.setPins (s.pins.clear x)) (s.clearFaults x) ∧ (s.clearFaults x).pins = s.pins.clear x := by
  by_cases none : s.pins.faults.filter x.selects = []
  · rw [State.clearFaults_none none, PinField.clear_none none]
    exact ⟨.refl s, rfl⟩
  · have pins : OffDrive State.pins := ⟨fun _ _ => rfl, fun _ _ => rfl, fun _ _ => rfl, State.post_pins⟩
    rw [State.clearFaults_some none, pins.wake, pins.reform]
    exact ⟨(PinPath.reform _ _).trans (PinPath.wake _), rfl⟩

theorem clearFaultsRule_selects {sel row col : Byte} (s : State) (read : readSelector sel row col = some x) :
    clearFaultsRule [sel, row, col] s = (s.clearFaults x, ⟨.ok, [put8 (s.pins.faults.filter x.selects).length,
      put8 (s.pins.faults.filter fun f => !x.selects f).length]⟩) := by
  simp only [clearFaultsRule, read]

theorem clearFaultsRule_bad {sel row col : Byte} (s : State) (read : readSelector sel row col = none) :
    clearFaultsRule [sel, row, col] s = (s, .bare .badArgument) := by
  simp only [clearFaultsRule, read]

end

end Sys2Proof.Machine

section
open Sys2Proof Sys2Proof.Machine

/-- Settles O24: the rule sends the table as it stands, and the invariant bounds its length. -/
theorem readFaultsListsTheTable : Obligations.ReadFaultsListsTheTable := by
  rintro s b tag rfl accepts
  refine ⟨State.take_frameOf (r := ⟨.ok, _⟩) (owner := readFaultsRule) accepts rfl rfl, fun ⟨_, few, _⟩ => ⟨?_, few⟩⟩
  rw [put8_toNat]
  omega

/-- Settles O48, by the selector that the payload spells. -/
theorem clearFaultsRemovesItsRecords : Obligations.ClearFaultsRemovesItsRecords := by
  rintro s b tag sel row col chosen gone kept rfl accepts
  refine ⟨fun bad => State.take_frameOf accepts rfl (clearFaultsRule_bad s (readSelector_bad bad)),
    fun canonical choice => ?_⟩
  obtain ⟨x, read, rfl⟩ := readSelector_selects choice
  rintro rfl rfl
  obtain ⟨path, pins⟩ := s.clearFaults_follows x
  exact ⟨s.setPins (s.pins.clear x), s.clearFaults x, rfl, path, State.clearFaults_none,
    PinField.clear_attempt canonical, by rw [pins]; rfl, State.clearFaults_some,
    State.take_frameOf accepts rfl (clearFaultsRule_selects s read)⟩

end
end

section
/-! SUPPORT. What the Row Calendar does when it is told of a completion, and which notices it posts (R145, R158, R161 to R163,
R186). -/

namespace Sys2Proof.Machine

/-- R186: a posting leaves the notices of the kinds that its own is not among, in their order. -/
theorem filter_enqueueNotice {among : Nat → Bool} (q : List Notice) {n : Notice} (other : among n.kindCode = false) :
    (enqueueNotice q n).filter (fun o => among o.kindCode) = q.filter fun o => among o.kindCode := by
  unfold enqueueNotice
  split
  · rw [List.filter_map]
    have kind : ∀ o : Notice, (if o.sameSubject n then o.merge n else o).kindCode = o.kindCode := fun o => by
      split
      · rename_i same; exact Notice.merge_kindCode o n ((Notice.sameSubject_iff o n).mp same)
      · rfl
    have same : q.filter ((fun o => among o.kindCode) ∘ fun o => if o.sameSubject n then o.merge n else o) =
        q.filter fun o => among o.kindCode := List.filter_congr fun o _ => congrArg among (kind o)
    rw [same]
    refine (List.map_congr_left fun o mem => ?_).trans (List.map_id _)
    rw [if_neg fun merges => ?_]
    · rfl
    · have kinds : o.kindCode = n.kindCode := congrArg Prod.fst ((Notice.sameSubject_iff o n).mp merges)
      have counted := (List.mem_filter.mp mem).2
      rw [kinds, other] at counted
      cases counted
  · rw [List.filter_append, List.filter_cons_of_neg (by simp [other]), List.filter_nil, List.append_nil]

/-- The queued notices that the scheduler does not post: of every kind but DRIVE and SETTLE. -/
def State.foreignNotices (s : State) : List Notice := s.link.notices.filter fun n => n.kindCode != 8 && n.kindCode != 9

theorem State.post_foreignNotices (s : State) {n : Notice} (own : n.kindCode = 8 ∨ n.kindCode = 9) :
    (s.post n).foreignNotices = s.foreignNotices := by
  rw [State.foreignNotices, State.post_link]
  simp only
  split
  · rfl
  · exact filter_enqueueNotice (among := fun k => k != 8 && k != 9) _ (by rcases own with own | own <;> rw [own] <;> rfl)

/-- R139: holding a plan leaves the link alone. -/
theorem State.holdPlan_link (s : State) (p : Plan) : (s.holdPlan p).link = s.link := by
  unfold State.holdPlan; split <;> rfl

theorem State.askDrive_link (s : State) (r : Fin 128) : (s.askDrive r).1.link = s.link := by
  unfold State.askDrive
  simp only
  split
  · rfl
  · exact State.holdPlan_link _ _

/-- The scheduler posts no notice but its own. -/
theorem foreignNotices_kept (q : List Notice) : KeptByMoves fun s => s.foreignNotices = q where
  setCal h _ := h
  post own h := (State.post_foreignNotices _ own).trans h
  askDrive r h _ := by rw [State.foreignNotices, State.askDrive_link]; exact h
  askSurvey r h _ := by rw [State.foreignNotices, State.askSurvey, State.holdPlan_link]; exact h

theorem PinField.lowestUnknown_some {p : PinField} {r : Fin 128} :
    p.lowestUnknown = some r ↔ LeastIndex (fun r : Fin 128 => p.known[r] = false) r := by
  rw [PinField.lowestUnknown, find_finRange_eq_some]
  simp only [Bool.not_eq_true']

theorem PinField.lowestUnknown_none {p : PinField} (all : ∀ r : Fin 128, p.known[r] = true) : p.lowestUnknown = none := by
  rw [PinField.lowestUnknown, List.find?_eq_none]
  exact fun r _ => by simp [all r]

/-- R145: being told of a completion. -/
theorem State.strokeDone_tells (s : State) : s.TellsCompleted s.strokeDone where
  survey r surveying least := by
    simp only [State.strokeDone, surveying, State.completeSurveying, PinField.lowestUnknown_some.mpr least,
      State.requestSurvey]
    rfl
  surveyed surveying all := by
    simp only [State.strokeDone, surveying, State.completeSurveying, PinField.lowestUnknown_none all]
    rfl
  drive v driving visit := by
    simp only [State.strokeDone, driving, State.completeDriving, visit]
    rfl
  begun driving visit := by
    simp only [State.strokeDone, driving, State.completeDriving, visit, State.goOn]
    rfl
  others notSurveying notDriving := by
    unfold State.strokeDone
    split
    · rename_i driving; exact absurd driving notDriving
    · rename_i surveying; exact absurd surveying notSurveying
    · rfl

end Sys2Proof.Machine
end

section
/-! SUPPORT. What a completed stroke does to the Pin Field: the survey's reading, and the judgement of the pins that a drive
stroke has moved, one by one (R115 to R121, R125, R126). -/

namespace Sys2Proof.Machine

/-! ### The row of the stroke (R118) -/

theorem PinField.confirm_known (p : PinField) (r : Fin 128) (sensed : PinRow) : (p.confirm r sensed).known[r] = true :=
  (getElem_set_fin _ _ _ _).trans (if_pos rfl)

theorem PinField.confirm_confirmed (p : PinField) (r : Fin 128) (sensed : PinRow) :
    (p.confirm r sensed).confirmed[r] = sensed := (getElem_set_fin _ _ _ _).trans (if_pos rfl)

/-- R116: the candidates of a known row. -/
theorem State.candidates_known {s : State} {r : Fin 128} (known : s.pins.known[r] = true) (c : Fin 80) :
    (s.candidates r).getLsbD c.val = true ↔
      s.pins.confirmed[r].getLsbD c.val ≠ s.comp.target[r].getLsbD c.val := by
  rw [State.candidates, if_pos known, BitVec.getLsbD_xor]
  cases s.comp.target[r].getLsbD c.val <;> cases s.pins.confirmed[r].getLsbD c.val <;> simp

/-- The state in which the Row Calendar is told of a completion. -/
def State.completed (s : State) (p : Plan) (sensed : PinRow) : State :=
  (s.takeResult p sensed).setDrive { (s.takeResult p sensed).drive with cond := .noPlan }

section
variable {s : State} {p : Plan} {sensed : PinRow}

theorem exec_strokeCompletion (awake : s.resetPin = false) (flies : s.drive.cond = .inFlight p) :
    exec (.strokeCompletion sensed) s = .next (s.completed p sensed).strokeDone := by
  simp only [exec, execStrokeCompletion, awake, flies]
  rfl

theorem exec_strokeCompletion_grounded (awake : s.resetPin = false) (grounded : ∀ p, s.drive.cond ≠ .inFlight p) :
    exec (.strokeCompletion sensed) s = .next s := by
  simp only [exec, execStrokeCompletion, awake]
  cases cond : s.drive.cond with
  | inFlight p => exact absurd cond (grounded p)
  | noPlan | waitCharge p => rfl

/-- R118: of a survey stroke the Pin Field takes the reading alone. -/
theorem State.completed_survey (survey : p.kind = .survey) : s.completed p sensed =
    { s with pins := s.pins.confirm p.row sensed, drive := { s.drive with cond := .noPlan } } := by
  simp only [State.completed, State.takeResult, survey]
  rfl

/-! ### What the Row Calendar leaves alone when it is told of a completion -/

theorem State.strokeDone_pins (s : State) : s.strokeDone.pins = s.pins :=
  OffDrive.strokeDone (f := State.pins) ⟨fun _ _ => rfl, fun _ _ => rfl, fun _ _ => rfl, State.post_pins⟩ s

theorem State.strokeDone_comp (s : State) : s.strokeDone.comp = s.comp := State.comp_offDrive.strokeDone s

theorem State.strokeDone_foreignNotices (free : s.drive.cond = .noPlan) : s.strokeDone.foreignNotices = s.foreignNotices :=
  (foreignNotices_kept _).strokeDone rfl free

end

/-! ### The judgement of one moved pin (R119, R120, R125, R126) -/

/-- R120: a FIRM or BOOST pulse has failed. -/
def Move.fails (sensed : PinRow) (m : Move) : Bool := decide (sensed.getLsbD m.col.val ≠ m.up ∧ m.pulse ≠ .soft)

/-- R119, R120: the attempt count of a moved pin after the stroke, its count before being `n`. -/
def Move.judged (sensed : PinRow) (m : Move) (n : Nat) : Nat :=
  if sensed.getLsbD m.col.val = m.up then 0 else if m.fails sensed then (if 2 ≤ n then 0 else n + 1) else n

/-- R120: a moved pin is found stuck at its third failure in a row. -/
def PinField.findsStuck (p : PinField) (r : Fin 128) (sensed : PinRow) (m : Move) : Bool :=
  m.fails sensed && decide (2 ≤ p.attempt r m.col)

/-- The fault record of a moved pin. -/
def Move.record (r : Fin 128) (sensed : PinRow) (m : Move) : FaultRecord := ⟨r, m.col, sensed.getLsbD m.col.val⟩

theorem PinField.setAttempt_attempt {p : PinField} (canonical : storeWf 0 p.attempts = true) (r r' : Fin 128)
    (c c' : Fin 80) (n : Nat) :
    (p.setAttempt r c n).attempt r' c' = if r' = r ∧ c' = c then n else p.attempt r' c' := by
  rw [PinField.attempt, PinField.setAttempt, storeRead_storeWrite 0 _ _ _ _ canonical]
  simp only [pinIndex_eq_iff]
  rfl

/-- What the judgement of one moved pin does to the tally. -/
structure ResultTally.Judges (t : ResultTally) (r : Fin 128) (sensed : PinRow) (m : Move) (u : ResultTally) : Prop where
  confirmed : u.pins.confirmed = t.pins.confirmed
  known : u.pins.known = t.pins.known
  canonical : storeWf 0 u.pins.attempts = true
  attempt : ∀ (r' : Fin 128) (c : Fin 80), u.pins.attempt r' c =
    if r' = r ∧ c = m.col then m.judged sensed (t.pins.attempt r m.col) else t.pins.attempt r' c
  faults : u.pins.faults = if t.pins.findsStuck r sensed m = true ∧ t.pins.faults.length < 64 then
    t.pins.faults ++ [m.record r sensed] else t.pins.faults
  newStuck : u.newStuck = t.newStuck + (t.pins.findsStuck r sensed m).toNat
  tableFull : u.tableFull = (t.tableFull || (t.pins.findsStuck r sensed m && decide (64 ≤ t.pins.faults.length)))

section
variable {t : ResultTally} (canonical : storeWf 0 t.pins.attempts = true)
include canonical

/-- A judgement that finds no pin stuck sets a count. -/
theorem ResultTally.Judges.counted {r : Fin 128} {sensed : PinRow} {m : Move} (free : t.pins.findsStuck r sensed m = false) :
    t.Judges r sensed m { t with pins := t.pins.setAttempt r m.col (m.judged sensed (t.pins.attempt r m.col)) } where
  confirmed := rfl
  known := rfl
  canonical := storeWrite_wf _ _ _ _ canonical
  attempt r' c := PinField.setAttempt_attempt canonical r r' m.col c _
  faults := by rw [free, if_neg (by simp)]; rfl
  newStuck := by rw [free]; rfl
  tableFull := by rw [free, Bool.false_and, Bool.or_false]

/-- A pin found stuck has its count set to 0, and is recorded while the table has room. -/
theorem ResultTally.Judges.found {r : Fin 128} {sensed : PinRow} {m : Move} (stuck : t.pins.findsStuck r sensed m = true)
    (zero : m.judged sensed (t.pins.attempt r m.col) = 0) :
    t.Judges r sensed m (t.stuck r m.col (sensed.getLsbD m.col.val)) := by
  have attempt : ∀ (r' : Fin 128) (c : Fin 80), (t.pins.setAttempt r m.col 0).attempt r' c =
      if r' = r ∧ c = m.col then m.judged sensed (t.pins.attempt r m.col) else t.pins.attempt r' c := fun r' c => by
    rw [zero]; exact PinField.setAttempt_attempt canonical r r' m.col c 0
  have canonical : storeWf 0 (t.pins.setAttempt r m.col 0).attempts = true := storeWrite_wf _ _ _ _ canonical
  by_cases room : (t.pins.setAttempt r m.col 0).faults.length < Config.maxFaults
  · simp only [ResultTally.stuck, if_pos room]
    exact ⟨rfl, rfl, canonical, attempt, by rw [if_pos ⟨stuck, room⟩]; rfl, by rw [stuck]; rfl,
      by rw [stuck, decide_eq_false (show ¬ 64 ≤ t.pins.faults.length from Nat.not_le.mpr room)]; exact (Bool.or_false _).symm⟩
  · simp only [ResultTally.stuck, if_neg room]
    exact ⟨rfl, rfl, canonical, attempt, by rw [if_neg fun h => room h.2]; rfl, by rw [stuck]; rfl,
      by rw [stuck, decide_eq_true (show 64 ≤ t.pins.faults.length from Nat.not_lt.mp room)]; exact (Bool.or_true _).symm⟩

theorem ResultTally.move_judges (r : Fin 128) (sensed : PinRow) (m : Move) : t.Judges r sensed m (t.move r sensed m) := by
  have counted := ResultTally.Judges.counted canonical (r := r) (sensed := sensed) (m := m)
  have found := ResultTally.Judges.found canonical (r := r) (sensed := sensed) (m := m)
  unfold ResultTally.move
  simp only
  by_cases reads : sensed.getLsbD m.col.val = m.up
  · have judged : m.judged sensed (t.pins.attempt r m.col) = 0 := if_pos reads
    rw [if_pos reads, ← judged]
    have spared : m.fails sensed = false := decide_eq_false fun fails => fails.1 reads
    exact counted (by rw [PinField.findsStuck, spared, Bool.false_and])
  rw [if_neg reads]
  by_cases soft : m.pulse = .soft
  · rw [if_pos soft]
    have spared : m.fails sensed = false := by simp [Move.fails, soft]
    have same : ∀ n, m.judged sensed n = n := fun n => by
      rw [Move.judged, if_neg reads, if_neg (by rw [spared]; nofun)]
    have free : t.pins.findsStuck r sensed m = false := by simp [PinField.findsStuck, spared]
    refine ⟨rfl, rfl, canonical, fun r' c => ?_, by simp [free], by simp [free], by simp [free]⟩
    rw [same]
    split
    · rename_i here; rw [here.1, here.2]
    · rfl
  rw [if_neg soft]
  have fails : m.fails sensed = true := decide_eq_true ⟨reads, soft⟩
  by_cases few : t.pins.attempt r m.col < 2
  · rw [if_pos few]
    have judged : m.judged sensed (t.pins.attempt r m.col) = t.pins.attempt r m.col + 1 := by
      rw [Move.judged, if_neg reads, if_pos fails, if_neg (Nat.not_le.mpr few)]
    rw [judged] at counted
    exact counted (by simp [PinField.findsStuck, Nat.not_le.mpr few])
  · rw [if_neg few]
    exact found (by simp [PinField.findsStuck, fails, Nat.not_lt.mp few])
      (by rw [Move.judged, if_neg reads, if_pos fails, if_pos (Nat.not_lt.mp few)])
end

/-! ### The judgement of all the moves -/

section
variable {r : Fin 128} {sensed : PinRow} {ms : List Move} {t : ResultTally}

theorem ResultTally.foldl_frame (canonical : storeWf 0 t.pins.attempts = true) :
    (ms.foldl (ResultTally.move r sensed) t).pins.confirmed = t.pins.confirmed ∧
      (ms.foldl (ResultTally.move r sensed) t).pins.known = t.pins.known := by
  induction ms generalizing t with
  | nil => exact ⟨rfl, rfl⟩
  | cons m ms ih =>
    have judges := ResultTally.move_judges canonical r sensed m
    exact ⟨(ih judges.canonical).1.trans judges.confirmed, (ih judges.canonical).2.trans judges.known⟩

/-- R117: the counts of the pins that are not moved stay. -/
theorem ResultTally.foldl_attempt_other (canonical : storeWf 0 t.pins.attempts = true) {r' : Fin 128} {c : Fin 80}
    (other : ∀ m ∈ ms, ¬ (r' = r ∧ c = m.col)) :
    (ms.foldl (ResultTally.move r sensed) t).pins.attempt r' c = t.pins.attempt r' c := by
  induction ms generalizing t with
  | nil => rfl
  | cons m ms ih =>
    have judges := ResultTally.move_judges canonical r sensed m
    rw [List.foldl_cons, ih judges.canonical fun m' mem => other m' (List.mem_cons_of_mem _ mem), judges.attempt,
      if_neg (other m List.mem_cons_self)]

/-- R119, R120: each moved pin has the count by which it is judged. -/
theorem ResultTally.foldl_attempt (canonical : storeWf 0 t.pins.attempts = true) (distinct : (ms.map Move.col).Nodup)
    {m : Move} (mem : m ∈ ms) : (ms.foldl (ResultTally.move r sensed) t).pins.attempt r m.col =
      m.judged sensed (t.pins.attempt r m.col) := by
  induction ms generalizing t with
  | nil => cases mem
  | cons m' ms ih =>
    have judges := ResultTally.move_judges canonical r sensed m'
    obtain ⟨apart, distinct⟩ := List.nodup_cons.mp distinct
    rw [List.foldl_cons]
    rcases List.mem_cons.mp mem with rfl | mem
    · rw [ResultTally.foldl_attempt_other judges.canonical fun m' mem' same =>
        apart (List.mem_map.mpr ⟨m', mem', same.2.symm⟩), judges.attempt, if_pos ⟨rfl, rfl⟩]
    · have other : ¬ (r = r ∧ m.col = m'.col) := fun same => apart (List.mem_map.mpr ⟨m, mem, same.2⟩)
      rw [ih judges.canonical distinct mem, judges.attempt, if_neg other]

/-- R120: which of the moved pins are found stuck hangs on the counts before the stroke. -/
theorem ResultTally.Judges.filter_findsStuck {m : Move} {u : ResultTally} (judges : t.Judges r sensed m u)
    (apart : m.col ∉ ms.map Move.col) :
    ms.filter (u.pins.findsStuck r sensed) = ms.filter (t.pins.findsStuck r sensed) := by
  refine List.filter_congr fun m' mem => ?_
  have other : ¬ (r = r ∧ m'.col = m.col) := fun same => apart (List.mem_map.mpr ⟨m', mem, same.2⟩)
  rw [PinField.findsStuck, judges.attempt, if_neg other, PinField.findsStuck]

/-- R125, R126: the pins found stuck are recorded in the order of the moves while the table has room. -/
theorem ResultTally.foldl_tally (canonical : storeWf 0 t.pins.attempts = true) (distinct : (ms.map Move.col).Nodup)
    (few : t.pins.faults.length ≤ 64) {stuck : List Move} (found : stuck = ms.filter (t.pins.findsStuck r sensed))
    {u : ResultTally} (folded : u = ms.foldl (ResultTally.move r sensed) t) :
    u.pins.faults = t.pins.faults ++ (stuck.map (Move.record r sensed)).take (64 - t.pins.faults.length) ∧
      u.newStuck = t.newStuck + stuck.length ∧
      u.tableFull = (t.tableFull || decide (64 < t.pins.faults.length + stuck.length)) := by
  subst found folded
  induction ms generalizing t with
  | nil => simp [Nat.not_lt.mpr few]
  | cons m ms ih =>
    have judges := ResultTally.move_judges canonical r sensed m
    obtain ⟨apart, distinct⟩ := List.nodup_cons.mp distinct
    have faults := judges.faults
    have newStuck := judges.newStuck
    have tableFull := judges.tableFull
    have rest := ih judges.canonical distinct
    rw [judges.filter_findsStuck apart] at rest
    rw [List.foldl_cons, List.filter_cons]
    generalize ms.filter (t.pins.findsStuck r sensed) = stuck at rest ⊢
    cases finds : t.pins.findsStuck r sensed m with
    | false =>
      rw [finds] at faults newStuck tableFull
      simp only [Bool.false_eq_true, false_and, if_false, Bool.toNat_false, Nat.add_zero, Bool.false_and,
        Bool.or_false] at faults newStuck tableFull ⊢
      rw [faults, newStuck, tableFull] at rest
      exact rest few
    | true =>
      rw [finds] at faults newStuck tableFull
      simp only [true_and, Bool.toNat_true, Bool.true_and] at faults newStuck tableFull
      simp only [if_true, List.map_cons, List.length_cons]
      by_cases room : t.pins.faults.length < 64
      · rw [if_pos room] at faults
        rw [faults, newStuck, tableFull] at rest
        obtain ⟨recorded, counted, full⟩ := rest (by simp; omega)
        have next : 64 - t.pins.faults.length = (64 - (t.pins.faults.length + 1)) + 1 := by omega
        refine ⟨?_, by omega, ?_⟩
        · rw [recorded, next, List.take_succ_cons, List.length_append, List.append_assoc]; rfl
        · rw [full, decide_eq_false (Nat.not_le.mpr room), Bool.or_false, List.length_append, List.length_singleton,
            Nat.add_right_comm, Nat.add_assoc]
      · rw [if_neg room] at faults
        rw [faults, newStuck, tableFull] at rest
        obtain ⟨recorded, counted, full⟩ := rest few
        have none : 64 - t.pins.faults.length = 0 := by omega
        refine ⟨?_, by omega, ?_⟩
        · rw [recorded, none, List.take_zero, List.take_zero]
        · rw [full, decide_eq_true (Nat.not_lt.mp room), Bool.or_true, Bool.true_or, decide_eq_true (by omega),
            Bool.or_true]

end

end Sys2Proof.Machine
end

section
/-! SUPPORT. The Pin Field after a completed drive stroke, as the rules read it off the moves (R119, R120, R125, R126). -/

namespace Sys2Proof.Machine

section
variable {s : State} {p : Plan} {sensed : PinRow}

/-- The Pin Field's tally of a drive stroke. -/
def State.tally (s : State) (p : Plan) (sensed : PinRow) : ResultTally :=
  p.moves.foldl (ResultTally.move p.row sensed) ⟨s.pins, 0, false⟩

theorem State.post_setPins (s : State) (x : PinField) (n : Notice) : (s.setPins x).post n = (s.post n).setPins x := by
  unfold State.post
  change (if s.link.masked n then _ else _) = _
  split <;> rfl

/-- R118, R126: the tally is taken over, and one PIN_FAULT is posted for the pins found stuck. -/
theorem State.completed_drive (drive : p.kind = .drive) : s.completed p sensed =
    { (if (s.tally p sensed).newStuck = 0 then s
        else s.post (.pinFault (s.tally p sensed).newStuck (s.tally p sensed).tableFull)) with
      pins := (s.tally p sensed).pins.confirm p.row sensed, drive := { s.drive with cond := .noPlan } } := by
  have taken : s.takeResult p sensed = (if (s.tally p sensed).newStuck = 0 then s
      else s.post (.pinFault (s.tally p sensed).newStuck (s.tally p sensed).tableFull)).setPins
        ((s.tally p sensed).pins.confirm p.row sensed) := by
    simp only [State.takeResult, drive, State.post_setPins]
    exact (apply_ite (fun u : State => u.setPins _) _ _ _).symm
  have same : (s.takeResult p sensed).drive = s.drive := by
    rw [taken, State.setPins_drive]
    split
    · rfl
    · exact State.post_drive _ _
  rw [State.completed, same, taken]
  rfl

variable (canonical : storeWf 0 s.pins.attempts = true) (ascending : (p.moves.map Move.col).Pairwise (· < ·))
include canonical ascending

/-- R119, R120: the attempt counts after the stroke. -/
theorem State.tally_attempt (r : Fin 128) (c : Fin 80) : (s.tally p sensed).pins.attempt r c =
    if r = p.row ∧ (∃ m ∈ p.moves, m.col = c ∧ sensed.getLsbD c.val = m.up) then 0
    else if r = p.row ∧ (∃ m ∈ p.moves.filter (Move.fails sensed), m.col = c) then
      (if 2 ≤ s.pins.attempt r c then 0 else s.pins.attempt r c + 1)
    else s.pins.attempt r c := by
  have distinct : (p.moves.map Move.col).Nodup := ascending.imp fun h => Fin.ne_of_lt h
  by_cases moved : r = p.row ∧ ∃ m ∈ p.moves, m.col = c
  · obtain ⟨rfl, m, mem, rfl⟩ := moved
    have only : ∀ m' ∈ p.moves, m'.col = m.col → m' = m := fun m' mem' same => List.inj_on_of_nodup_map distinct mem' mem same
    have placed : (p.row = p.row ∧ ∃ m' ∈ p.moves, m'.col = m.col ∧ sensed.getLsbD m.col.val = m'.up) ↔
        sensed.getLsbD m.col.val = m.up :=
      ⟨fun ⟨_, m', mem', same, reads⟩ => only m' mem' same ▸ reads, fun reads => ⟨rfl, m, mem, rfl, reads⟩⟩
    have failed : (p.row = p.row ∧ ∃ m' ∈ p.moves.filter (Move.fails sensed), m'.col = m.col) ↔ m.fails sensed = true := by
      refine ⟨fun ⟨_, m', mem', same⟩ => ?_, fun fails => ⟨rfl, m, List.mem_filter.mpr ⟨mem, fails⟩, rfl⟩⟩
      obtain ⟨mem', fails⟩ := List.mem_filter.mp mem'
      exact only m' mem' same ▸ fails
    rw [State.tally, ResultTally.foldl_attempt canonical distinct mem, Move.judged]
    exact (if_congr placed rfl (if_congr failed rfl rfl)).symm
  · rw [if_neg fun ⟨row, m, mem, col, _⟩ => moved ⟨row, m, mem, col⟩,
      if_neg fun ⟨row, m, mem, col⟩ => moved ⟨row, m, (List.mem_filter.mp mem).1, col⟩]
    exact ResultTally.foldl_attempt_other canonical fun m mem ⟨row, col⟩ => moved ⟨row, m, mem, col.symm⟩

end

end Sys2Proof.Machine

section
open Sys2Proof Sys2Proof.Machine

/-- Settles O49: the completion takes the reading, and the Row Calendar, told of it, leaves the Pin Field and the image
alone. -/
theorem surveyReadsItsRow : Obligations.SurveyReadsItsRow := by
  intro s sensed awake
  refine ⟨exec_strokeCompletion_grounded awake, fun p flies survey => ⟨_, exec_strokeCompletion awake flies, ?_⟩⟩
  have completed := State.completed_survey (s := s) (sensed := sensed) survey
  have pins : (s.completed p sensed).strokeDone.pins = s.pins.confirm p.row sensed := by
    rw [State.strokeDone_pins, completed]
  have comp : (s.completed p sensed).strokeDone.comp = s.comp := by rw [State.strokeDone_comp, completed]
  refine ⟨pins, comp, fun c => ?candidates, ?notices, ?told⟩
  case candidates =>
    rw [State.candidates_known (by rw [pins]; exact PinField.confirm_known _ _ _), pins, comp, PinField.confirm_confirmed]
  case notices =>
    refine (State.strokeDone_foreignNotices (by rw [completed])).trans ?_
    rw [completed]
    rfl
  case told =>
    rw [pins, ← completed]
    exact State.strokeDone_tells _

/-- Settles O50: the moves are judged one by one, each on the count its pin had before the stroke. -/
theorem driveStrokesAreJudged : Obligations.DriveStrokesAreJudged := by
  rintro s p sensed failed stuck awake flies drive ascending canonical few rfl found
  have distinct : (p.moves.map Move.col).Nodup := ascending.imp fun h => Fin.ne_of_lt h
  have stuckMoves : stuck = p.moves.filter (s.pins.findsStuck p.row sensed) := by
    rw [found, List.filter_filter]
    exact List.filter_congr fun m _ => Bool.and_comm _ _
  obtain ⟨recorded, counted, full⟩ := ResultTally.foldl_tally (t := ⟨s.pins, 0, false⟩) canonical distinct few stuckMoves
    (rfl : s.tally p sensed = _)
  obtain ⟨confirmed, known⟩ := ResultTally.foldl_frame (r := p.row) (sensed := sensed) (ms := p.moves)
    (t := ⟨s.pins, 0, false⟩) canonical
  have completed : s.completed p sensed = { (if stuck = [] then s
        else s.post (.pinFault stuck.length (decide (64 < s.pins.faults.length + stuck.length)))) with
      pins := (s.tally p sensed).pins.confirm p.row sensed, drive := { s.drive with cond := .noPlan } } := by
    rw [State.completed_drive drive]
    simp only [counted, full, Nat.zero_add, List.length_eq_zero_iff, Bool.false_or]
  have pins : (s.completed p sensed).strokeDone.pins = (s.tally p sensed).pins.confirm p.row sensed := by
    rw [State.strokeDone_pins, completed]
  refine ⟨_, exec_strokeCompletion awake flies, ?confirmed, ?known, fun r c => ?attempt, ?faults, ?notices, ?told⟩
  case confirmed => rw [pins]; exact congrArg (fun v : Vector PinRow 128 => v.set p.row sensed) confirmed
  case known => rw [pins]; exact congrArg (fun v : Vector Bool 128 => v.set p.row true) known
  case attempt => rw [pins]; exact State.tally_attempt canonical ascending r c
  case faults => rw [pins]; exact recorded
  case notices =>
    refine (State.strokeDone_foreignNotices (by rw [completed])).trans ?_
    rw [completed]
    rfl
  case told =>
    rw [pins, ← completed]
    exact State.strokeDone_tells _

end
end

section
/-! SUPPORT. Touch zones: what a reading makes of its zone's record, and what telling a change of its state leads to (R168 to
R171, R173 to R176). -/

namespace Sys2Proof.Machine

theorem zoneOfCell_val {l : Fin 32} {c : Nat} (inLine : c < 40) : (zoneOfCell l c).val = 2 * (l.val / 4) + c / 20 := by
  simp only [zoneOfCell, zoneAt, bandOfLine, halfOfCell]
  split
  · simp only [Fin.val_zero]; omega
  · simp only [Fin.val_one]; omega

/-! ### A reading (R168 to R170) -/

/-- R169: the record once the baseline has followed a reading at a distance `delta` from it. -/
def Zone.tracked (x : Zone) (base : Nat) (delta : Int) (tOff : Nat) : Zone :=
  { x with baseline := some (if x.state = .clear ∧ delta < tOff then ((base : Int) + delta.tdiv 16).toNat else base) }

section
variable {x : Zone} {m tOn tOff base : Nat} {delta : Int}

theorem Zone.read_first (first : x.baseline = none) : x.read m tOn tOff = ({ x with baseline := some m }, false) := by
  rw [Zone.read, first]

theorem pointsAway_iff : pointsAway x.state delta tOn tOff = true ↔
    if x.state = .clear then (tOn : Int) ≤ delta else delta < tOff := by
  cases state : x.state <;> simp [pointsAway]

variable (later : x.baseline = some base) (distance : delta = (m : Int) - base)
include later distance

theorem Zone.read_later : x.read m tOn tOff =
    if ¬ (if x.state = .clear then (tOn : Int) ≤ delta else delta < tOff) then
      ({ x.tracked base delta tOff with run := 0 }, false)
    else if x.run < 2 then ({ x.tracked base delta tOff with run := x.run + 1 }, false)
    else if x.state = .clear then ({ x.tracked base delta tOff with state := .touched, run := 0 }, true)
    else ({ x.tracked base delta tOff with state := .clear, run := 0, hold := none }, true) := by
  subst distance
  simp only [← pointsAway_iff, Bool.not_eq_true]
  obtain ⟨state, baseline, run, hold⟩ := x
  subst later
  simp only [Zone.read, Bool.not_eq_true']
  cases state <;> rfl

end

/-! ### A change of state that is told (R171, R173 to R176) -/

section
variable (s : State) (z : Fin 16) (x : Zone) (band : Fin 8)

/-- The zone's record and the reading band are replaced. -/
def State.putZone : State := { s with touch := { s.touch with zones := s.touch.zones.set z x, band := band } }

theorem PinPath.zoneWoken (s : State) (z : Fin 16) : PinPath s (s.zoneWoken z) :=
  ((PinPath.recompose s _).trans (.reform _ _)).trans (.wake _)

theorem PinPath.readingBand {s t : State} (h : PinPath s t) : t.touch.band = s.touch.band := by
  rw [h.touch]

/-- R109, R171: the lines told are those with a CURSOR cell in the zone. -/
theorem State.zoneWoken_eq {lines : List (Fin 32)} (all : ∀ l, l ∈ lines ↔ s.CursorIn l z) :
    s.zoneWoken z = ((s.recompose lines).reform fun r => bandOfRow r == bandOfZone z).wake := by
  rw [State.zoneWoken, State.recompose_congr fun l => State.mem_zoneLines.trans (all l).symm]

/-- R171, R174 to R176: the neighbours are told, and of a new reading band the follow slot. -/
theorem State.zoneChanges_of_put {bandChanged : Bool} (moved : bandChanged = true ↔ band ≠ s.touch.band) :
    s.ZoneChanges z x band ((s.putZone z x band).zoneChanged z bandChanged) := by
  have woken := PinPath.zoneWoken (s.putZone z x band) z
  have told := fun lines all => (s.putZone z x band).zoneWoken_eq z (lines := lines) all
  rw [State.zoneChanged_woken]
  generalize (s.putZone z x band).zoneWoken z = w at woken told ⊢
  generalize followed : (if bandChanged = true then w.setCal (w.cal.followBand w.touch.band) else w) = u
  have path : PinPath (s.putZone z x band) u := by
    subst followed
    split
    · exact woken.trans (.setCal rfl (Calendar.followBand_slots _ _) (.inl rfl))
    · exact woken
  refine ⟨s.putZone z x band, w, u, Vector.ofFn fun j => u.touch.zones[j].state, rfl, told, ?cal, path, fun j => ?zones,
    ?posted⟩
  case cal =>
    subst followed
    by_cases same : band = s.touch.band
    · rw [if_pos same, if_neg fun changed => moved.mp changed same]
    · rw [if_neg same, if_pos (moved.mpr same), woken.readingBand]
      rfl
  case zones =>
    have zone : u.touch.zones[j].state = (s.touch.zones.set z x)[j].state := by rw [path.zones j]; rfl
    have listed : (Vector.ofFn fun j : Fin 16 => u.touch.zones[j].state)[j] = u.touch.zones[j].state := by simp
    rw [listed, zone, getElem_set_fin]
    split <;> rfl
  case posted =>
    rw [State.postTouch, path.readingBand]
    rfl

variable {x}

theorem State.zoneTakes_still : s.zoneTakes z (x, false) =
    { s with touch := { s.touch with zones := s.touch.zones.set z x } } := rfl

/-- R174: a passage to TOUCHED sets the reading band. -/
theorem State.zoneTakes_touched (touched : x.state = .touched) :
    s.ZoneChanges z x (bandOfZone z) (s.zoneTakes z (x, true)) := by
  have told : s.zoneTakes z (x, true) = (s.putZone z x (bandOfZone z)).zoneChanged z (s.touch.band != bandOfZone z) := by
    simp only [State.zoneTakes, touched, if_true]
    rfl
  rw [told]
  exact s.zoneChanges_of_put z x _ (by rw [bne_iff_ne]; exact ne_comm)

theorem State.zoneTakes_other (other : x.state ≠ .touched) : s.ZoneChanges z x s.touch.band (s.zoneTakes z (x, true)) := by
  have told : s.zoneTakes z (x, true) = (s.putZone z x s.touch.band).zoneChanged z false := by
    simp only [State.zoneTakes, if_neg other, if_true]
    rfl
  rw [told]
  exact s.zoneChanges_of_put z x _ (by simp)

end

theorem exec_zoneReading {s : State} (z : Fin 16) (m : BitVec 12) (awake : s.resetPin = false) :
    exec (.zoneReading z m) s = .next (s.zoneTakes z (s.touch.zones[z].read m.toNat s.touch.tOn s.touch.tOff)) :=
  if_neg (by simp [awake])

end Sys2Proof.Machine

section
open Sys2Proof Sys2Proof.Machine

/-- Settles O51: the reading gives the zone's record and whether its state has changed, and a changed state is told. -/
theorem zonesFollowTheirReadings : Obligations.ZonesFollowTheirReadings := by
  refine ⟨fun _ _ => ⟨rfl, rfl⟩, fun _ _ => zoneOfCell_val, fun _ => rfl, fun _ => rfl, ?_⟩
  rintro s z m x awake rfl
  refine ⟨fun first => ?first, ?later, fun runs touched => ?expires, fun stopped => ?stopped⟩
  case first => rw [exec_zoneReading z m awake, Zone.read_first first, State.zoneTakes_still]
  case later =>
    intro base delta y later distance tracked kept
    have record : y = s.touch.zones[z].tracked base delta s.touch.tOff := by rw [kept, tracked]; rfl
    subst record
    have read := Zone.read_later (tOn := s.touch.tOn) (tOff := s.touch.tOff) later distance
    refine ⟨fun toward => ?_, fun away => ⟨fun early => ?_, fun third clear => ?_, fun third taken => ?_⟩⟩
    · rw [exec_zoneReading z m awake, read, if_pos toward, State.zoneTakes_still]
    · rw [exec_zoneReading z m awake, read, if_neg (not_not_intro away), if_pos early, State.zoneTakes_still]
    · rw [exec_zoneReading z m awake, read, if_neg (not_not_intro away), if_neg (Nat.not_lt.mpr third), if_pos clear]
      exact ⟨_, rfl, s.zoneTakes_touched z rfl⟩
    · rw [exec_zoneReading z m awake, read, if_neg (not_not_intro away), if_neg (Nat.not_lt.mpr third), if_neg taken]
      exact ⟨_, rfl, s.zoneTakes_other z nofun⟩
  case expires =>
    refine ⟨s.zoneTakes z ({ s.touch.zones[z] with state := .expired, hold := none }, true), if_neg ?_,
      s.zoneTakes_other z nofun⟩
    simp [awake, runs, touched, -Fin.getElem_fin]
  case stopped => 
    refine if_pos ?_
    rcases stopped with none | other
    · simp [none, -Fin.getElem_fin]
    · simp [other, -Fin.getElem_fin]

end
end

section
/-! SUPPORT. The pins' invariant alone is not kept: what it says of a waiting plan leaves the supply open, and the return of the
supply under the hold flag goes by R165 from SUPPLY_LOW (R137, R146, R165). -/

namespace Sys2Proof.Machine

/-- A drive plan waits in DRIVING although the supply is low, and the supply is about to return under the hold flag. -/
def State.stranded : State :=
  { State.reset with
    pending := [.supplyRise]
    drive := { State.reset.drive with cond := .waitCharge ⟨.drive, 0, [], 10, 12⟩, supply := .low }
    cal := { State.reset.cal with sched := .driving, hold := true } }

theorem State.stranded_pinsSound : State.stranded.PinsSound := by
  refine ⟨by decide, by decide, by decide, ?plans, ?fresh⟩
  case plans =>
    rintro p ⟨⟩
    exact ⟨by decide, by decide, nofun, by decide⟩
  case fresh =>
    rintro p ⟨⟩ _
    exact ⟨rfl, nofun⟩

/-- The scheduler is put into PAUSED, and the plan is not withdrawn. -/
theorem State.stranded_step : ∃ t, step State.stranded = .next t ∧ t.cal.sched = .paused ∧
    t.drive.cond = .waitCharge ⟨.drive, 0, [], 10, 12⟩ := ⟨_, rfl, rfl, rfl⟩

end Sys2Proof.Machine

section
open Sys2Proof Sys2Proof.Machine

/-- Refutes O57: PinsSound alone admits a drive plan that waits in DRIVING under a low supply (DriveSound does not), and at a
SUPPLY_RISE with the hold flag set the scheduler enters PAUSED with that plan still waiting, so that it is fresh no more. -/
theorem not_stepKeepsPinsPlansAndTheDrive : ¬ Obligations.StepKeepsPinsPlansAndTheDrive := by
  intro keeps
  obtain ⟨t, stepped, paused, waits⟩ := State.stranded_step
  obtain ⟨-, -, -, -, fresh⟩ := (keeps State.stranded t stepped).1 State.stranded_pinsSound
  have driving := (fresh ⟨.drive, 0, [], 10, 12⟩ (by rw [waits]; rfl) rfl).1
  rw [paused] at driving
  cases driving

end
end

section
/-! SUPPORT. The start of a plan whose cost the level has reached, and how the scheduler takes its work up again (R140, R141,
R159, R161, R165). -/

namespace Sys2Proof.Machine

/-- R159: what the calendar notes of a start, by the kind of the stroke. -/
theorem Calendar.noteStart_eq (c : Calendar) (kind : StrokeKind) : c.noteStart kind = c.strokeStarted kind := by
  cases kind <;> rfl

/-- R141: at the start the cost is drawn and the drive is IN_FLIGHT. -/
theorem State.startStroke_eq (s : State) (p : Plan) :
    s.startStroke p = { s with drive := s.drive.fly p, cal := s.cal.strokeStarted p.kind } := by
  rw [State.startStroke, Calendar.noteStart_eq]
  rfl

section
variable {s : State} {p : Plan}

theorem State.startIfCharged_reached (waits : s.drive.cond = .waitCharge p) (reached : p.cost ≤ s.drive.level) :
    s.startIfCharged = { s with drive := s.drive.fly p, cal := s.cal.strokeStarted p.kind } := by
  simp only [State.startIfCharged, waits, if_pos reached, State.startStroke_eq]

theorem State.startIfCharged_short (short : ∀ p, s.drive.cond = .waitCharge p → s.drive.level < p.cost) :
    s.startIfCharged = s := by
  unfold State.startIfCharged
  split
  · rename_i p waits; exact if_neg (Nat.not_le.mpr (short p waits))
  · rfl

theorem exec_strokeStart (awake : s.resetPin = false) : exec .strokeStart s = .next s.startIfCharged :=
  if_neg (by simp [awake])

/-- R140: no unit comes while the supply is low. -/
theorem exec_refillUnitArrival_low (low : s.drive.supply = .low) : exec .refillUnitArrival s = .next s :=
  if_pos (by simp [low])

/-- R140: a unit adds 1 to the level, which stays within the reservoir's 2,000. -/
theorem exec_refillUnitArrival (awake : s.resetPin = false) (powered : s.drive.supply = .ok) :
    exec .refillUnitArrival s =
      .next (s.setDrive { s.drive with level := min 2000 (s.drive.level + 1) }).startIfCharged :=
  if_neg (by simp [awake, powered])

end

/-! ### Taking work up (R161, R164, R165) -/

section
variable {s : State} {announce : State → State}

/-- R161: the request is a survey of the lowest unknown row. -/
theorem State.requestSurvey_least {r : Fin 128} (least : LeastIndex (fun r : Fin 128 => s.pins.known[r] = false) r) :
    s.requestSurvey = s.surveys r := by
  rw [State.requestSurvey, PinField.lowestUnknown_some.mpr least]
  rfl

theorem State.takeUp_surveys {r : Fin 128} (announced : ∀ u, (announce u).pins = u.pins)
    (least : LeastIndex (fun r : Fin 128 => s.pins.known[r] = false) r) :
    s.takeUp announce = (announce { s with cal := { s.cal with sched := .surveying } }).surveys r := by
  rw [State.takeUp, PinField.lowestUnknown_some.mpr least]
  exact State.requestSurvey_least (by rw [announced]; exact least)

theorem State.takeUp_drives (all : ∀ r : Fin 128, s.pins.known[r] = true) :
    s.takeUp announce = (announce { s with cal := { s.cal with sched := .driving } }).driveOn := by
  rw [State.takeUp, PinField.lowestUnknown_none all]
  rfl

/-- R159: of a scheduler that is DRIVING already, the quiet set is emptied first. -/
theorem PinPath.driveOn_driving (driving : s.cal.sched = .driving) :
    PinPath { s with cal := { s.cal with quiet := [] } } s.driveOn := by
  have entered : s.driveOn = State.runCalendar Config.calendarFuel { s with cal := { s.cal with quiet := [] } } := by
    rw [State.driveOn, ← driving]
    rfl
  rw [entered]
  exact PinPath.runCalendar _ _ (congrArg Scheduler.atWork driving)

end

end Sys2Proof.Machine

section
open Sys2Proof Sys2Proof.Machine

/-- Settles O44: each row comes to the one test of the level against the cost of a plan that waits. -/
theorem chargeStartsStrokes : Obligations.ChargeStartsStrokes := by
  intro s awake
  refine ⟨exec_refillUnitArrival_low, ?unit, fun p waits reached => ?starts, fun short => ?waits⟩
  case unit =>
    rintro powered level rfl
    rw [exec_refillUnitArrival awake powered]
    exact ⟨fun p waits reached => congrArg _ (State.startIfCharged_reached waits reached),
      fun short => congrArg _ (State.startIfCharged_short short)⟩
  case starts => exact (exec_strokeStart awake).trans (congrArg _ (State.startIfCharged_reached waits reached))
  case waits => exact (exec_strokeStart awake).trans (congrArg _ (State.startIfCharged_short short))

end
end

section
/-! SUPPORT. The fall and the rise of the drive supply (R146, R147, R165). -/

namespace Sys2Proof.Machine

section
variable {s : State}

/-- R146: of a stroke in flight the row becomes unknown. -/
theorem State.discardStroke_flying {p : Plan} (flies : s.drive.cond = .inFlight p) :
    s.discardStroke = { s with pins := { s.pins with known := s.pins.known.set p.row false } } := by
  simp only [State.discardStroke, flies]
  rfl

theorem State.discardStroke_grounded (grounded : ∀ p, s.drive.cond ≠ .inFlight p) : s.discardStroke = s := by
  unfold State.discardStroke
  split
  · rename_i p flies; exact absurd flies (grounded p)
  · rfl

/-- R146: what a fall makes of the drive and the scheduler, once the stroke is discarded. -/
theorem State.supplyLost_of_discard {pins : PinField} (discarded : s.discardStroke = { s with pins := pins }) :
    s.supplyLost = ({ s with
      pins := pins
      drive := { s.drive with cond := .noPlan, level := 0, supply := .low }
      cal := { s.cal with sched := .supplyLow } }).post (.drive .supplyLow .low) := by
  rw [State.supplyLost, discarded]
  rfl

theorem exec_supplyFall (awake : s.resetPin = false) (powered : s.drive.supply = .ok) :
    exec .supplyFall s = .next { s with supplyPin := .low }.supplyLost :=
  if_neg (by simp [awake, powered])

/-- Only the comparator's reading changes (log entries 2 and 5). -/
theorem exec_supplyFall_ignored (ignored : s.resetPin = true ∨ s.drive.supply = .low) :
    exec .supplyFall s = .next { s with supplyPin := .low } :=
  if_pos (by simpa using ignored)

theorem exec_supplyRise (awake : s.resetPin = false) (low : s.drive.supply = .low) :
    exec .supplyRise s = .next { s with supplyPin := .ok }.supplyBack :=
  if_neg (by simp [awake, low])

/-- Only the comparator's reading changes (log entries 2 and 5). -/
theorem exec_supplyRise_ignored (ignored : s.resetPin = true ∨ s.drive.supply = .ok) :
    exec .supplyRise s = .next { s with supplyPin := .ok } :=
  if_pos (by simpa using ignored)

/-- R165: under the hold flag the scheduler goes from SUPPLY_LOW to PAUSED. -/
theorem State.supplyBack_held (hold : s.cal.hold = true) :
    s.supplyBack = ({ s with
      drive := { s.drive with supply := .ok }
      cal := { s.cal with sched := .paused } }).post (.drive .paused .ok) :=
  if_pos hold

/-- R165: without it the scheduler takes its work up, and DRIVE is posted before the first request. -/
theorem State.supplyBack_free (free : s.cal.hold = false) :
    s.supplyBack = State.takeUp { s with drive := { s.drive with supply := .ok } } State.postDrive :=
  if_neg (by simp [free])

theorem State.supplyBack_surveys {r : Fin 128} (free : s.cal.hold = false)
    (least : LeastIndex (fun r : Fin 128 => s.pins.known[r] = false) r) :
    s.supplyBack = (({ s with
      drive := { s.drive with supply := .ok }
      cal := { s.cal with sched := .surveying } }).post (.drive .surveying .ok)).surveys r :=
  (State.supplyBack_free free).trans (State.takeUp_surveys State.postDrive_pins least)

theorem State.supplyBack_drives (free : s.cal.hold = false) (all : ∀ r : Fin 128, s.pins.known[r] = true) :
    s.supplyBack = (({ s with
      drive := { s.drive with supply := .ok }
      cal := { s.cal with sched := .driving } }).post (.drive .driving .ok)).driveOn :=
  (State.supplyBack_free free).trans (State.takeUp_drives all)

end

end Sys2Proof.Machine

section
open Sys2Proof Sys2Proof.Machine

/-- Settles O47: a fall by whether a stroke is in flight, a rise by the hold flag and by whether a row is unknown. -/
theorem supplyFallsAndRises : Obligations.SupplyFallsAndRises := by
  intro s
  refine ⟨fun awake powered => ?fall, exec_supplyFall_ignored, exec_supplyRise_ignored, ?rise⟩
  case fall =>
    rw [exec_supplyFall awake powered]
    cases cond : s.drive.cond with
    | inFlight p => exact congrArg _ (State.supplyLost_of_discard (State.discardStroke_flying cond))
    | noPlan | waitCharge p =>
      exact congrArg _ (State.supplyLost_of_discard (State.discardStroke_grounded (by simp [cond])))
  case rise =>
    rintro awake low t rfl
    rw [exec_supplyRise awake low]
    refine ⟨fun hold => ?held, fun r free least => ?surveys, fun free all => ?drives⟩
    case held => exact congrArg _ (State.supplyBack_held hold)
    case surveys => exact congrArg _ (State.supplyBack_surveys free least)
    case drives => exact ⟨_, _, rfl, rfl, PinPath.driveOn_driving (by simp), congrArg _ (State.supplyBack_drives free all)⟩

end
end

section
/-! SUPPORT. What the blocks may do to the calendar, the zones and the notice queue when they react to an event, as a path of
single changes; and the invariants that every such change keeps (R153 to R159, R168 to R173, R186). -/

namespace Sys2Proof.Machine

/-! ### The calendar's own changes (R155 to R165) -/

/-- One change that the Row Calendar makes of itself: of its mode, with the quiet set emptied or not; of the visit, which begins,
stands on a row with fewer than 4 strokes, or ends; and at the start of a stroke. -/
inductive Calendar.Turns (c : Calendar) (band : Fin 8) : Calendar → Prop
  | mode (x : Scheduler) (hold : Bool) : c.Turns band { c with sched := x, hold := hold }
  | emptied (x : Scheduler) : c.Turns band { c with sched := x, quiet := [] }
  | begun : c.Turns band (c.beginVisit band)
  | row (v : LineVisit) (few : v.strokes < 4) : c.Turns band { c with visit := some v }
  | ended (quiet : List (Fin 32)) (distinct : c.quiet.Nodup → quiet.Nodup) :
      c.Turns band (Calendar.passTurn { c with visit := none, quiet := quiet })
  | started (kind : StrokeKind) : c.Turns band (c.noteStart kind)

/-- R153 to R159: a sound calendar, but that a follow slot's cursor may lie in any of several bands. -/
structure Calendar.SoundIn (c : Calendar) (bands : Fin 8 → Prop) : Prop where
  one : 1 ≤ c.slots.length
  few : c.slots.length ≤ 4
  slots : ∀ (i : Nat) (sl : CalendarSlot), c.slots[i]? = some sl → ∃ band, bands band ∧ sl.Sound i band
  lines : ∀ l : Fin 32, ∃ sl ∈ c.slots, sl.follow = false ∧ sl.first ≤ l.val ∧ l.val ≤ sl.last
  turn : ∃ sl, c.slots[c.current]? = some sl ∧ c.visitsLeft ≤ sl.count
  left : c.visit = none → 1 ≤ c.visitsLeft
  quiet : c.quiet.Nodup
  strokes : ∀ v ∈ c.visit, v.strokes < 4

theorem State.calendarSound_iff {s : State} : s.CalendarSound ↔ s.cal.SoundIn (· = s.touch.band) := by
  constructor
  · rintro ⟨one, few, slots, lines, ⟨sl, current, left⟩, begun, quiet, strokes⟩
    refine ⟨one, few, fun i sl listed => ?_, lines, ⟨sl, current, left⟩, begun, quiet, strokes⟩
    have inside := (List.getElem?_eq_some_iff.mp listed).1
    exact ⟨_, rfl, slots ⟨i, by omega⟩ sl listed⟩
  · rintro ⟨one, few, slots, lines, ⟨sl, current, left⟩, begun, quiet, strokes⟩
    refine ⟨one, few, fun i sl listed => ?_, lines, ⟨sl, current, left⟩, begun, quiet, strokes⟩
    obtain ⟨_, rfl, sound⟩ := slots i sl listed
    exact sound

theorem Calendar.SoundIn.mono {c : Calendar} {bands wider : Fin 8 → Prop} (h : c.SoundIn bands)
    (sub : ∀ band, bands band → wider band) : c.SoundIn wider :=
  { h with slots := fun i sl listed => (h.slots i sl listed).imp fun band ⟨inside, sound⟩ => ⟨sub band inside, sound⟩ }

section
variable {sl : CalendarSlot} {i : Nat} {was : Fin 8} (h : sl.Sound i was) (band : Fin 8)
include h

/-- R153: a band's lines, or the slot's own, are lines of the page, and the first comes no later than the last. -/
theorem CalendarSlot.Sound.range_le : (sl.range band).1 ≤ (sl.range band).2 ∧ (sl.range band).2 ≤ 31 := by
  obtain ⟨-, -, -, own, -⟩ := h
  unfold CalendarSlot.range
  cases follow : sl.follow with
  | true => simp only [if_true]; omega
  | false => exact own follow

/-- R155: the cursor goes on to the next line, and from the last line, or from outside the range, to the first. -/
theorem CalendarSlot.Sound.nextCursor_val : (sl.nextCursor band).val =
    if (sl.range band).1 ≤ sl.cursor.val ∧ sl.cursor.val < (sl.range band).2 then sl.cursor.val + 1
    else (sl.range band).1 := by
  have order := CalendarSlot.Sound.range_le h band
  simp only [CalendarSlot.nextCursor, Fin.ofNat]
  refine Nat.mod_eq_of_lt ?_
  split <;> omega

/-- R155: wherever the cursor was, the next one lies in the range. -/
theorem CalendarSlot.Sound.advanced : ({ sl with cursor := sl.nextCursor band } : CalendarSlot).Sound i band := by
  have order := CalendarSlot.Sound.range_le h band
  have next := CalendarSlot.Sound.nextCursor_val h band
  obtain ⟨least, most, first, own, -⟩ := h
  have inside : (sl.range band).1 ≤ (sl.nextCursor band).val ∧ (sl.nextCursor band).val ≤ (sl.range band).2 := by
    rw [next]
    split <;> omega
  exact ⟨least, most, first, own, inside⟩

/-- R156: a follow slot is put at the first line of the band, and the other slots stay. -/
theorem CalendarSlot.Sound.followed :
    (if sl.follow then { sl with cursor := firstLineOfBand band } else sl : CalendarSlot).Sound i band := by
  obtain ⟨least, most, first, own, inside⟩ := h
  split
  · rename_i follow
    refine ⟨least, most, first, own, ?_⟩
    simp only [CalendarSlot.range, follow, if_true, firstLineOfBand]
    omega
  · rename_i fixed
    rw [Bool.not_eq_true] at fixed
    refine ⟨least, most, first, own, ?_⟩
    simpa [CalendarSlot.range, fixed] using inside

end

theorem joinQuiet_nodup {q : List (Fin 32)} (h : q.Nodup) (l : Fin 32) : (joinQuiet q l).Nodup := by
  unfold joinQuiet
  split
  · exact h
  · rename_i out
    simpa using h.concat (by simpa using out)

namespace Calendar.SoundIn

variable {c x : Calendar} {bands : Fin 8 → Prop} (h : c.SoundIn bands)

include h

/-- R155, R156: only the cursors of the slots have moved, and to places where they may stand. -/
theorem moved {slots : List CalendarSlot} {others : Fin 8 → Prop}
    (same : slots.map (fun sl => (sl.first, sl.last, sl.count, sl.follow)) =
      c.slots.map fun sl => (sl.first, sl.last, sl.count, sl.follow))
    (sound : ∀ (i : Nat) (sl : CalendarSlot), slots[i]? = some sl → ∃ band, others band ∧ sl.Sound i band) :
    ({ c with slots := slots } : Calendar).SoundIn others := by
  have length : slots.length = c.slots.length := by simpa using congrArg List.length same
  have now : ∀ (i : Nat) (old : CalendarSlot), c.slots[i]? = some old → ∃ sl, slots[i]? = some sl ∧
      sl.first = old.first ∧ sl.last = old.last ∧ sl.count = old.count ∧ sl.follow = old.follow := fun i old was => by
    have there := congrArg (·[i]?) same
    simp only [List.getElem?_map, was, Option.map_some, Option.map_eq_some_iff, Prod.mk.injEq] at there
    exact there
  obtain ⟨one, few, -, lines, ⟨current, turn, left⟩, begun, quiet, strokes⟩ := h
  refine ⟨by rwa [length], by rwa [length], sound, fun l => ?lines, ?turn, begun, quiet, strokes⟩
  case lines =>
    obtain ⟨old, mem, reaches⟩ := lines l
    obtain ⟨i, was⟩ := List.getElem?_of_mem mem
    obtain ⟨sl, listed, first, last, -, follow⟩ := now i old was
    exact ⟨sl, List.mem_of_getElem? listed, by rwa [first, last, follow]⟩
  case turn =>
    obtain ⟨sl, listed, -, -, count, -⟩ := now _ current turn
    exact ⟨sl, listed, by rwa [count]⟩

/-- R155: a visit takes one of the current slot's, and its cursor goes on. -/
theorem beginVisit {band : Fin 8} (inside : bands band) : (c.beginVisit band).SoundIn bands := by
  have advanced := h.moved (c.beginVisit_slots band) fun i sl listed => by
    simp only [Calendar.beginVisit, List.getElem?_modify, Option.map_eq_map, Option.map_eq_some_iff] at listed
    obtain ⟨old, was, rfl⟩ := listed
    split
    · obtain ⟨_, -, sound⟩ := h.slots i old was
      exact ⟨band, inside, CalendarSlot.Sound.advanced sound band⟩
    · exact h.slots i _ was
  obtain ⟨sl, turn, left⟩ := advanced.turn
  exact { advanced with
    turn := ⟨sl, turn, (Nat.sub_le _ _).trans left⟩
    left := nofun
    strokes := by rintro v ⟨⟩; exact Nat.zero_lt_succ 3 }

/-- R155: after a visit with no visits left the turn passes to the next slot, which has its count of visits. -/
theorem passTurn {quiet : List (Fin 32)} (distinct : quiet.Nodup) :
    (Calendar.passTurn { c with visit := none, quiet := quiet }).SoundIn bands := by
  obtain ⟨one, few, slots, lines, turn, -, -, -⟩ := h
  unfold Calendar.passTurn
  split
  · simp only
    generalize hnext : (if c.current + 1 < c.slots.length then c.current + 1 else 0) = next
    have inside : next < c.slots.length := by subst hnext; split <;> omega
    obtain ⟨sl, listed⟩ : ∃ sl, c.slots[next]? = some sl := ⟨_, List.getElem?_eq_getElem inside⟩
    obtain ⟨_, -, count, -⟩ := slots next sl listed
    rw [listed]
    exact ⟨one, few, slots, lines, ⟨sl, listed, le_refl _⟩, fun _ => count, distinct, nofun⟩
  · rename_i left
    exact ⟨one, few, slots, lines, turn, fun _ => Nat.pos_of_ne_zero left, distinct, nofun⟩

theorem turns {band : Fin 8} (inside : bands band) (moves : c.Turns band x) : x.SoundIn bands := by
  cases moves with
  | mode => exact { h with }
  | emptied => exact { h with quiet := .nil }
  | begun => exact h.beginVisit inside
  | row v few => exact { h with left := nofun, strokes := by rintro _ ⟨⟩; exact few }
  | ended quiet distinct => exact h.passTurn (distinct h.quiet)
  | started kind =>
    have strokes : ∀ v ∈ (c.noteStart kind).visit, v.strokes < 4 := fun v stands => by
      obtain ⟨old, was, rfl⟩ := Option.map_eq_some_iff.mp stands
      exact h.strokes old was
    have left : (c.noteStart kind).visit = none → 1 ≤ c.visitsLeft := fun none => h.left (Option.map_eq_none_iff.mp none)
    cases kind with
    | drive => exact { h with left := left, quiet := .nil, strokes := strokes }
    | survey => exact { h with left := left, strokes := strokes }

/-- R156: when the reading band has changed every follow slot's cursor goes to it. -/
theorem followBand (band : Fin 8) : (c.followBand band).SoundIn (· = band) :=
  h.moved (c.followBand_slots band) fun i sl listed => by
    obtain ⟨old, was, rfl⟩ := Option.map_eq_some_iff.mp ((List.getElem?_map ..).symm.trans listed)
    obtain ⟨_, -, sound⟩ := h.slots i old was
    exact ⟨band, rfl, CalendarSlot.Sound.followed sound band⟩

end Calendar.SoundIn
end Sys2Proof.Machine
end

section
/-! SUPPORT. The path of single changes by which the blocks react to an event, and what it keeps (R153 to R159, R168 to R173,
R186). -/

namespace Sys2Proof.Machine

/-- R168, R170, R172: a zone's record. -/
abbrev Zone.Sound (x : Zone) : Prop :=
  (∀ b ∈ x.baseline, b ≤ 4095) ∧ x.run ≤ 2 ∧ (x.hold ≠ none → x.state = .touched) ∧ (x.baseline = none → x.state = .clear)

/-- `s` comes from `a` by turns of the calendar, by hold timers that start, by postings, and by changes of what lies apart from
all of these; queued notices may also be dropped. -/
inductive State.Reacts (a : State) : State → Prop
  | refl : a.Reacts a
  | apart {s t : State} (h : a.Reacts s) (cal : t.cal = s.cal) (touch : t.touch = s.touch)
      (notices : t.link.notices.Sublist s.link.notices) : a.Reacts t
  | post {s : State} (h : a.Reacts s) (n : Notice) : a.Reacts (s.post n)
  | startHold {s : State} (h : a.Reacts s) (z : Fin 16) : a.Reacts (s.setTouch (s.touch.startHold z))
  | turn {s : State} {x : Calendar} (h : a.Reacts s) (turns : s.cal.Turns s.touch.band x) : a.Reacts (s.setCal x)

namespace State.Reacts

variable {a s t : State} (h : a.Reacts s)

include h

/-! ### What the path keeps -/

theorem band : s.touch.band = a.touch.band := by
  induction h with
  | refl => rfl
  | apart _ _ touch _ ih => rw [touch, ih]
  | post _ n ih => rw [State.post_touch, ih]
  | startHold _ z ih => exact (congrArg Touch.band (Touch.startHold_frame _ z).1).trans ih
  | turn _ _ ih => exact ih

theorem soundIn {bands : Fin 8 → Prop} (inside : bands a.touch.band) (sound : a.cal.SoundIn bands) : s.cal.SoundIn bands := by
  induction h with
  | refl => exact sound
  | apart _ cal _ _ ih => rwa [cal]
  | post _ n ih => rwa [State.post_cal]
  | startHold _ z ih => exact ih
  | turn before turns ih => exact ih.turns (by rwa [before.band]) turns

theorem calendarSound (sound : a.CalendarSound) : s.CalendarSound := by
  rw [State.calendarSound_iff] at sound ⊢
  rw [h.band]
  exact h.soundIn rfl sound

theorem touchSound (sound : a.TouchSound) : s.TouchSound := by
  induction h with
  | refl => exact sound
  | apart _ _ touch _ ih => rwa [State.TouchSound, touch]
  | post _ n ih => rwa [State.TouchSound, State.post_touch]
  | turn _ _ ih => exact ih
  | @startHold s _ z ih =>
    obtain ⟨zones, settings⟩ := ih
    have limits := (Touch.startHold_frame s.touch z).1
    refine ⟨fun y => ?_, by rw [State.setTouch_touch, limits]; exact settings⟩
    have named := s.touch.mayStartHold_zone False z y
    simp only [if_false, not_false_eq_true, true_and] at named
    rw [State.setTouch_touch, named]
    split
    · rename_i starts
      obtain ⟨baseline, run, -, unread⟩ := zones y
      exact ⟨baseline, run, fun _ => starts.2.1, unread⟩
    · exact zones y

theorem noticesDistinct (distinct : a.NoticesDistinct) : s.NoticesDistinct := by
  induction h with
  | refl => exact distinct
  | apart _ _ _ notices ih => exact ih.sublist (notices.map _)
  | startHold _ _ ih => exact ih
  | turn _ _ ih => exact ih
  | post _ n ih =>
    rw [State.NoticesDistinct, State.post_link]
    simp only
    split
    · exact ih
    · exact enqueueNotice_distinct _ n ih

/-! ### Single changes -/

theorem setLink {x : Link} (notices : x.notices.Sublist s.link.notices) : a.Reacts (s.setLink x) := h.apart rfl rfl notices
theorem setDir (x : Directory) : a.Reacts (s.setDir x) := h.apart rfl rfl (.refl _)
theorem setLoad (x : Decoder) : a.Reacts (s.setLoad x) := h.apart rfl rfl (.refl _)
theorem setSweep (x : Option SweepRun) : a.Reacts (s.setSweep x) := h.apart rfl rfl (.refl _)
theorem setNav (x : Navigation) : a.Reacts (s.setNav x) := h.apart rfl rfl (.refl _)
theorem setComp (x : Compositor) : a.Reacts (s.setComp x) := h.apart rfl rfl (.refl _)
theorem setPins (x : PinField) : a.Reacts (s.setPins x) := h.apart rfl rfl (.refl _)
theorem setDrive (x : Drive) : a.Reacts (s.setDrive x) := h.apart rfl rfl (.refl _)

theorem setSched (x : Scheduler) : a.Reacts (s.setCal { s.cal with sched := x }) := h.turn (.mode x s.cal.hold)
theorem setHold (x : Bool) : a.Reacts (s.setCal { s.cal with hold := x }) := h.turn (.mode s.cal.sched x)

/-! ### Planning and starting (R137 to R142) -/

theorem reportDeferred (r : Fin 128) : a.Reacts (s.reportDeferred r) := by
  unfold State.reportDeferred
  simp only
  split
  · split
    · exact h
    · exact h.startHold _
  · split
    · exact h.startHold _
    · exact (h.startHold _).startHold _

theorem startStroke (p : Plan) : a.Reacts (s.startStroke p) := (h.setDrive _).turn (.started p.kind)

theorem holdPlan (p : Plan) : a.Reacts (s.holdPlan p) := by
  unfold State.holdPlan
  split
  · exact h.startStroke p
  · exact h.setDrive _

theorem askDrive (r : Fin 128) : a.Reacts (s.askDrive r).1 := by
  unfold State.askDrive
  simp only
  split
  · exact (h.reportDeferred r).setDrive _
  · exact (h.reportDeferred r).holdPlan _

theorem requestSurvey : a.Reacts s.requestSurvey := by
  unfold State.requestSurvey
  split
  · exact h.holdPlan _
  · exact h

theorem startIfCharged : a.Reacts s.startIfCharged := by
  unfold State.startIfCharged
  split
  · split
    · exact h.startStroke _
    · exact h
  · exact h

/-! ### The visits of the calendar (R155 to R160) -/

theorem endVisit (v : LineVisit) : a.Reacts (s.endVisit v).1 := by
  have distinct : s.cal.quiet.Nodup → (if v.started then s.cal.quiet else joinQuiet s.cal.quiet v.line).Nodup := fun q => by
    split
    · exact q
    · exact joinQuiet_nodup q _
  unfold State.endVisit
  simp only
  generalize (if v.started then s.cal.quiet else joinQuiet s.cal.quiet v.line) = quiet at distinct
  have passed := h.turn (.ended quiet distinct)
  split
  · exact (passed.setSched .idle).post _
  · exact passed

theorem rowDone (v : LineVisit) : a.Reacts (s.rowDone v).1 := by
  unfold State.rowDone
  split
  · exact h.endVisit v
  · exact h.turn (.row _ (Nat.zero_lt_succ 3))

theorem countStroke (v : LineVisit) : a.Reacts (s.countStroke v).1 := by
  unfold State.countStroke
  split
  · rename_i few; exact h.turn (.row _ few)
  · exact h.rowDone v

theorem calendarMove : a.Reacts s.calendarMove.1 := by
  unfold State.calendarMove
  split
  · exact h.turn .begun
  · rename_i v _
    have asked := h.askDrive (pinRow v.line v.row)
    split
    · rename_i t e; rwa [e] at asked
    · rename_i t e; rw [e] at asked; exact asked.rowDone v

theorem runCalendar (n : Nat) : a.Reacts (State.runCalendar n s) := by
  induction n generalizing s with
  | zero => exact h
  | succ n ih =>
    have moved := h.calendarMove
    unfold State.runCalendar
    split
    · rename_i t e; rw [e] at moved; exact ih moved
    · rename_i t e; rwa [e] at moved

omit h in
theorem goOn {r : State × Bool} (h : a.Reacts r.1) : a.Reacts (State.goOn r) := by
  obtain ⟨t, b⟩ := r
  cases b
  · exact h
  · exact h.runCalendar _

theorem driveOn : a.Reacts s.driveOn := (h.turn (.emptied .driving)).runCalendar _

theorem wake : a.Reacts s.wake := by
  unfold State.wake
  split
  · exact h.turn (.emptied s.cal.sched)
  · exact h.driveOn
  · exact h

theorem rowNothing : a.Reacts s.rowNothing := by
  unfold State.rowNothing
  split
  · exact (h.rowDone _).goOn
  · exact h.runCalendar _
  · exact h

theorem reform (rows : Fin 128 → Bool) : a.Reacts (s.reform rows) := by
  unfold State.reform
  split
  · split
    · rename_i p _ _
      have asked := h.askDrive p.row
      split
      · rename_i t e; rwa [e] at asked
      · rename_i t e; rw [e] at asked; exact asked.rowNothing
    · exact h
  · exact h

/-! ### Surveys and completions (R145, R158, R161 to R165) -/

theorem postDrive : a.Reacts s.postDrive := h.post _

theorem takeUp {announce : State → State} (announced : ∀ {u}, a.Reacts u → a.Reacts (announce u)) :
    a.Reacts (s.takeUp announce) := by
  unfold State.takeUp
  split
  · exact (announced (h.setSched .surveying)).requestSurvey
  · exact (announced (h.setSched .driving)).driveOn

theorem completeDriving : a.Reacts s.completeDriving := by
  have counted : a.Reacts (match s.cal.visit with
      | some v => s.countStroke v
      | none => (s, true)).1 := by
    split
    · exact h.countStroke _
    · exact h
  unfold State.completeDriving
  simp only
  split
  · exact counted.setSched .paused
  · exact counted.goOn

theorem completeSurveying : a.Reacts s.completeSurveying := by
  unfold State.completeSurveying
  split
  · split
    · exact h.setSched .paused
    · exact h.requestSurvey
  · split
    · exact (h.setSched .paused).postDrive
    · exact (h.setSched .driving).postDrive.driveOn

theorem strokeDone : a.Reacts s.strokeDone := by
  unfold State.strokeDone
  split
  · exact h.completeDriving
  · exact h.completeSurveying
  · exact h

/-! ### Recomposition (R109, R110, R171) -/

theorem recompose (lines : List (Fin 32)) : a.Reacts (s.recompose lines) := by
  have put : a.Reacts (s.composed lines) := by
    refine h.apart ?_ ?_ ?_ <;> simp only [State.composed, List.Sublist.refl]
  rw [State.recompose_eq]
  split
  · exact put
  · exact (put.reform _).wake

theorem zoneWoken (z : Fin 16) : a.Reacts (s.zoneWoken z) := ((h.recompose _).reform _).wake

end State.Reacts
end Sys2Proof.Machine
end

section
/-! SUPPORT. Every row lets the blocks react, but for the rows that put a calendar, a zone's record, touch settings or reset
values of their own: in each rule the refusals leave the state, and what is left is what the rule does. -/

namespace Sys2Proof.Machine
namespace State.Reacts

variable {a s t : State} (h : a.Reacts s)

include h

/-! ### The Compositor and navigation are told (R66 to R77) -/

theorem ite {p : Prop} [Decidable p] (ht : a.Reacts t) : a.Reacts (if p then t else s) := by
  split
  · exact ht
  · exact h

theorem tellLines (i : Fin 48) (lines : List (Fin 32)) : a.Reacts (s.tellLines i lines) := h.ite (h.recompose lines)

theorem tellCondition (before : NavCondition) : a.Reacts (s.tellCondition before) := h.ite (h.recompose _)

theorem showEntry (i : Fin 48) : a.Reacts (s.showEntry i) := by
  unfold State.showEntry
  split
  · exact h
  · exact (h.setDir _).recompose _

theorem evaluate (cause : ShownCause) : a.Reacts (s.evaluate cause) := by
  unfold State.evaluate
  split
  · exact h
  · refine tellCondition ?_ _
    split
    · exact ((h.showEntry _).setNav _).post _
    · exact h.setNav _
    · exact h.setNav _
    · exact ite (((h.setNav _).setNav _).post _) (h.setNav _)

theorem wantPage (page : BitVec 16) (cause : ShownCause) : a.Reacts (s.wantPage page cause) := (h.setNav _).evaluate cause
theorem loadEnded (k : Key) : a.Reacts (s.loadEnded k) := h.ite (h.evaluate _)
theorem keyReleased (k : Key) : a.Reacts (s.keyReleased k) := h.ite (h.evaluate _)

theorem keyCommitted (k : Key) : a.Reacts (s.keyCommitted k) :=
  have unlocked := h.ite (p := s.nav.lockedOn k = true) (h.setNav _)
  unlocked.ite (unlocked.evaluate _)

theorem keyMoved (before after : Key) (shown : Bool) : a.Reacts (s.keyMoved before after shown) :=
  have followed := h.ite (p := shown = true) (h.setNav _)
  have unlocked := followed.ite (followed.setNav _)
  unlocked.ite (unlocked.evaluate _)

theorem tellReleased (keys : List Key) : a.Reacts (s.tellReleased keys) := by
  induction keys generalizing s with
  | nil => exact h
  | cons k rest ih => exact ih (h.keyReleased k)

/-! ### Navigation's commands and the patron keys (R56, R57, R63 to R73) -/

theorem showRule (p : List Byte) : a.Reacts (showRule p s).1 := by
  unfold Machine.showRule
  repeat' split
  all_goals try exact h
  exact (h.setNav _).wantPage _ _

theorem declineMiss : a.Reacts s.declineMiss := by
  unfold State.declineMiss
  repeat' split
  · exact ((h.setNav _).setNav _).tellCondition _
  · exact h.setNav _
  · exact h

theorem setNavigationRule (p : List Byte) : a.Reacts (setNavigationRule p s).1 := by
  unfold Machine.setNavigationRule
  repeat' split
  all_goals try exact h
  exact h.setNav _

theorem pageStep (next : BitVec 16 → BitVec 16) : a.Reacts (s.pageStep next) := by
  unfold State.pageStep
  repeat' split
  all_goals try exact h
  exact h.wantPage _ _

theorem seek : a.Reacts s.seek := by
  unfold State.seek
  repeat' split
  all_goals try exact h
  exact h.wantPage _ _

theorem markPress : a.Reacts s.markPress := by
  unfold State.markPress
  dsimp only
  repeat' split
  all_goals try exact h
  exact (h.setDir _).tellLines _ _

theorem pressKeys (keys : List PatronKey) : a.Reacts (s.pressKeys keys) := by
  induction keys generalizing s with
  | nil => exact h
  | cons k rest ih =>
    refine ih ?_
    cases k with
    | prev => exact (h.post _).pageStep _
    | next => exact (h.post _).pageStep _
    | mark => exact (h.post _).markPress
    | seek => exact (h.post _).seek
    | call => exact h.post _

/-! ### The commands on entries and marks (R18 to R20, R52 to R55) -/

theorem patchCellsRule (p : List Byte) : a.Reacts (patchCellsRule p s).1 := by
  unfold Machine.patchCellsRule
  repeat' split
  all_goals try exact h
  exact (h.setDir _).tellLines _ _

theorem retireRule (p : List Byte) : a.Reacts (retireRule p s).1 := by
  unfold Machine.retireRule
  repeat' split
  all_goals try exact h
  exact h.setDir _

theorem setEntryRule (p : List Byte) : a.Reacts (setEntryRule p s).1 := by
  unfold Machine.setEntryRule
  repeat' split
  all_goals try exact h
  exact h.setDir _

theorem addMarkRule (p : List Byte) : a.Reacts (addMarkRule p s).1 := by
  unfold Machine.addMarkRule
  dsimp only
  repeat' split
  all_goals try exact h
  exact (h.setDir _).tellLines _ _

theorem dropMarksRule (p : List Byte) : a.Reacts (dropMarksRule p s).1 := by
  unfold Machine.dropMarksRule
  dsimp only
  repeat' split
  all_goals try exact h
  exact (h.setDir _).tellLines _ _

/-! ### Loads (R24 to R47) -/

theorem openLoadRule (p : List Byte) : a.Reacts (openLoadRule p s).1 := by
  unfold Machine.openLoadRule
  dsimp only
  repeat' split
  all_goals try exact h
  all_goals exact (h.setDir _).setLoad _

theorem dropLoad (i : Fin 2) (r : LoadSlot) : a.Reacts (s.dropLoad i r) := (h.setLoad _).setDir _

theorem fatalStream (i : Fin 2) (r : LoadSlot) (e : StreamError) (offset : Nat) : a.Reacts (s.fatalStream i r e offset) :=
  ((h.dropLoad i r).post _).loadEnded _

theorem dataRule (p : List Byte) : a.Reacts (dataRule p s).1 := by
  have stored : ∀ i w, a.Reacts (s.storeWork i w) := fun i w => (h.setLoad _).setDir _
  unfold Machine.dataRule
  repeat' split
  all_goals try exact h
  · exact stored _ _
  · exact (stored _ _).fatalStream _ _ _ _

theorem takeCommit (i : Fin 2) (r : LoadSlot) : a.Reacts (s.takeCommit i r).1 := by
  unfold State.takeCommit
  split
  · exact ((h.setLoad _).setDir _).keyCommitted _
  · exact (ite ((h.setLoad _).setDir _) (((h.setLoad _).setDir _).recompose _)).keyCommitted _

theorem commitRule (p : List Byte) : a.Reacts (commitRule p s).1 := by
  unfold Machine.commitRule
  dsimp only
  repeat' split
  all_goals try exact h
  · exact h.setLoad _
  · exact (h.setLoad _).takeCommit _ _

theorem cancelLoadRule (p : List Byte) : a.Reacts (cancelLoadRule p s).1 := by
  unfold Machine.cancelLoadRule
  repeat' split
  all_goals try exact h
  exact (h.dropLoad _ _).loadEnded _

theorem setControlCodesRule (p : List Byte) : a.Reacts (setControlCodesRule p s).1 := by
  unfold Machine.setControlCodesRule
  dsimp only
  repeat' split
  all_goals try exact h
  exact h.setLoad _

/-! ### Sweeps (R86 to R94) -/

theorem sweepRule (p : List Byte) : a.Reacts (sweepRule p s).1 := by
  unfold Machine.sweepRule
  split
  · exact h
  · split
    · exact h
    · exact (h.setDir _).setSweep _

theorem abortSweepRule (p : List Byte) : a.Reacts (abortSweepRule p s).1 := by
  unfold Machine.abortSweepRule
  split
  · exact h
  · exact (((h.setDir _).tellReleased _).post _).setSweep _

theorem visitHeld (r : SweepRun) (i : Fin 48) (k : Key) : a.Reacts (s.visitHeld r i k).1 := by
  have released : ∀ d, a.Reacts ((s.setDir d).keyReleased k) := fun d => (h.setDir d).keyReleased k
  have applied : ∀ lost : List (Fin 32), a.Reacts (if lost = [] then s.setDir (s.dir.visitApply i r.descriptor k)
      else (s.setDir (s.dir.visitApply i r.descriptor k)).tellLines i lost) := fun lost =>
    ite ((h.setDir _).tellLines i lost) (h.setDir _)
  unfold State.visitHeld
  simp only
  split
  · split
    · exact released _
    · exact released _
  · split
    · exact released _
    · exact ite ((applied _).keyMoved _ _ _) ((applied _).keyReleased k)

theorem visitEntry (r : SweepRun) (i : Fin 48) : a.Reacts (s.visitEntry r i).1 := by
  unfold State.visitEntry
  repeat' split
  · exact h.visitHeld r i _
  · exact h.setDir _
  · exact h

theorem sweepAdvance (r : SweepRun) : a.Reacts (s.sweepAdvance r) := by
  unfold State.sweepAdvance
  split
  · exact h.setSweep _
  · exact (h.post _).setSweep _

/-! ### The status line, the blink timer and the notice mask (R105 to R108, R187) -/

theorem setStatusRule (p : List Byte) : a.Reacts (setStatusRule p s).1 := by
  have phased : ∀ on time text, a.Reacts (s.putPhase on time text) := fun on time text =>
    ite ((h.setComp _).recompose _) (h.setComp _)
  unfold Machine.setStatusRule
  repeat' split
  all_goals try exact h
  rw [State.setStatus_eq]
  exact (phased _ _ _).ite ((phased _ _ _).recompose _)

theorem setGlyphs (g : Glyphs) : a.Reacts (s.setGlyphs g) := (h.setComp _).ite ((h.setComp _).recompose _)

theorem setNoticeMaskRule (p : List Byte) : a.Reacts (setNoticeMaskRule p s).1 := by
  unfold Machine.setNoticeMaskRule
  repeat' split
  all_goals try exact h
  exact h.setLink (.refl _)

/-! ### The drive, the calendar and the pin field (R128, R130, R145 to R148, R162 to R165) -/

theorem setDriveRule (p : List Byte) : a.Reacts (setDriveRule p s).1 := by
  unfold Machine.setDriveRule
  dsimp only
  repeat' split
  all_goals try exact h
  exact (h.setDrive _).reform fun _ => true

theorem pauseDrive : a.Reacts s.pauseDrive := by
  have held := h.setHold true
  unfold State.pauseDrive
  cases s.cal.sched with
  | idle => exact held.setSched .paused
  | surveying | driving => exact ite ((held.setDrive _).setSched .paused) held
  | paused | supplyLow => exact held

theorem resumeDrive : a.Reacts s.resumeDrive := by
  have freed := h.setHold false
  unfold State.resumeDrive
  cases s.cal.sched with
  | paused => exact freed.takeUp id
  | idle => exact freed.wake
  | surveying | driving | supplyLow => exact freed

theorem surveyAll : a.Reacts s.surveyAll := by
  have unknown := h.setPins s.pins.allUnknown
  have formed := (unknown.setSched .surveying).reform fun _ => true
  unfold State.surveyAll
  cases s.cal.sched with
  | driving => exact formed.requestSurvey.ite formed
  | idle => exact (unknown.setSched .surveying).requestSurvey
  | surveying | paused | supplyLow => exact unknown

theorem clearFaultsRule (p : List Byte) : a.Reacts (clearFaultsRule p s).1 := by
  unfold Machine.clearFaultsRule
  repeat' split
  all_goals try exact h
  exact ite ((h.setPins _).reform _).wake h

theorem takeResult (p : Plan) (sensed : PinRow) : a.Reacts (s.takeResult p sensed) := by
  unfold State.takeResult
  split
  · exact h.setPins _
  · exact ite ((h.setPins _).post _) (h.setPins _)

theorem supplyLost : a.Reacts s.supplyLost := by
  have discarded : a.Reacts s.discardStroke := by
    unfold State.discardStroke
    split
    · exact h.setPins _
    · exact h
  exact ((discarded.setDrive _).setSched .supplyLow).postDrive

theorem supplyBack : a.Reacts s.supplyBack :=
  ite ((h.setDrive _).takeUp fun back => back.postDrive) ((h.setDrive _).setSched .paused).postDrive

end State.Reacts

/-! ### The rows -/

variable {s t : State}

/-- R181 to R183: taking a command forms its response after the rule. -/
theorem State.take_reacts {code : Byte} {b : CommandBody} {owner : List Byte → State → State × Reply}
    (rule : ∀ p, s.Reacts (owner p s).1) (taken : s.take code b owner = .next t) : s.Reacts t := by
  rcases State.take_cases owner taken with ⟨-, -, rfl⟩ | ⟨-, -, rfl⟩ | ⟨-, rfl⟩
  · exact (rule b.payload).setLink (.refl _)
  · exact State.Reacts.refl.setLink (.refl _)
  · exact .refl

/-- R180, R183, R186: a transaction queues no notice. -/
theorem exec_transaction_reacts {c : Instr} (isTransaction : c.isTransaction = true) (e : exec c s = .next t) :
    s.Reacts t := by
  have kept : ∀ {x : Link}, x.notices = s.link.notices → s.Reacts (s.setLink x) := fun same =>
    State.Reacts.refl.setLink (by rw [same])
  cases c with
  | writeCommand shown bytes =>
    unfold exec execWriteCommand at e
    simp only at e
    split_ifs at e
    · cases e; exact kept rfl
    · cases e; exact .refl
    · cases e; exact kept rfl
    · split at e
      · cases e; exact kept rfl
      · cases e; exact kept rfl
  | readResponse clocked =>
    unfold exec execReadResponse at e
    simp only at e
    split_ifs at e
    · cases e; exact kept rfl
    · cases e; exact kept rfl
    · cases e; exact kept rfl
  | readNotice clocked =>
    unfold exec execReadNotice at e
    simp only at e
    split_ifs at e
    · cases e; exact kept rfl
    · cases e; exact kept rfl
    · cases e; exact State.Reacts.refl.setLink (List.tail_sublist _)
  | statusOnlyTransaction code clocked =>
    refine outcome_of_ite ?_ ?_ e
    · exact kept rfl
    · exact kept rfl
  | _ => cases isTransaction

theorem execTimeout_reacts {slot : Fin 2} (e : execTimeout slot s = .next t) : s.Reacts t := by
  unfold execTimeout at e
  split at e
  · cases e; exact .refl
  · split at e
    · cases e; exact .refl
    · cases e; exact State.Reacts.refl.fatalStream _ _ _ _

theorem execSweepVisit_reacts (e : execSweepVisit s = .next t) : s.Reacts t := by
  unfold execSweepVisit at e
  split at e
  · cases e; exact .refl
  · split at e
    · cases e; exact .refl
    · cases e; exact (State.Reacts.refl.visitEntry _ _).sweepAdvance _

theorem execStrokeCompletion_reacts {sensed : PinRow} (e : execStrokeCompletion sensed s = .next t) : s.Reacts t := by
  unfold execStrokeCompletion at e
  split at e
  · cases e; exact .refl
  · split at e
    · cases e; exact ((State.Reacts.refl.takeResult _ sensed).setDrive _).strokeDone
    · cases e; exact .refl

/-- The rows that put a calendar, a zone's record, touch settings or reset values. -/
def putsRecords : Instr → Bool
  | .setCalendar _ | .setTouch _ | .zoneReading _ _ | .holdTimerExpiry _ | .resetCommand _ | .powerOnReset | .pinReset => true
  | _ => false

theorem exec_reacts {c : Instr} (other : putsRecords c = false) (e : exec c s = .next t) : s.Reacts t := by
  have here : s.Reacts s := .refl
  have supply : ∀ pin, s.Reacts { s with supplyPin := pin } := fun _ => here.apart rfl rfl (.refl _)
  cases c with
  | openLoad b => exact State.take_reacts here.openLoadRule e
  | data b => exact State.take_reacts here.dataRule e
  | commit b => exact State.take_reacts here.commitRule e
  | cancelLoad b => exact State.take_reacts here.cancelLoadRule e
  | setControlCodes b => exact State.take_reacts here.setControlCodesRule e
  | queryEntry b => exact State.take_reacts (fun p => by rw [queryEntryRule_state]; exact here) e
  | listEntries b => exact State.take_reacts (fun p => by rw [listEntriesRule_state]; exact here) e
  | readRow b => exact State.take_reacts (fun p => by rw [readRowRule_state]; exact here) e
  | readFaults b => exact State.take_reacts (fun _ => here) e
  | readStatus b => exact State.take_reacts (fun _ => here) e
  | patchCells b => exact State.take_reacts here.patchCellsRule e
  | retire b => exact State.take_reacts here.retireRule e
  | setEntry b => exact State.take_reacts here.setEntryRule e
  | addMark b => exact State.take_reacts here.addMarkRule e
  | dropMarks b => exact State.take_reacts here.dropMarksRule e
  | sweep b => exact State.take_reacts here.sweepRule e
  | abortSweep b => exact State.take_reacts here.abortSweepRule e
  | showKey b => exact State.take_reacts here.showRule e
  | declineMiss b => exact State.take_reacts (fun _ => here.declineMiss) e
  | setNavigation b => exact State.take_reacts here.setNavigationRule e
  | setStatus b => exact State.take_reacts here.setStatusRule e
  | setGlyphs b => exact State.take_reacts (fun _ => here.setGlyphs _) e
  | setNoticeMask b => exact State.take_reacts here.setNoticeMaskRule e
  | setDrive b => exact State.take_reacts here.setDriveRule e
  | pauseDrive b => exact State.take_reacts (fun _ => here.pauseDrive) e
  | resumeDrive b => exact State.take_reacts (fun _ => here.resumeDrive) e
  | survey b => exact State.take_reacts (fun _ => here.surveyAll) e
  | clearFaults b => exact State.take_reacts here.clearFaultsRule e
  | writeCommand shown bytes => exact exec_transaction_reacts rfl e
  | readResponse clocked => exact exec_transaction_reacts rfl e
  | readNotice clocked => exact exec_transaction_reacts rfl e
  | statusOnlyTransaction code clocked => exact exec_transaction_reacts rfl e
  | unknownCommand code b =>
    refine outcome_of_ite ?_ here e
    exact here.setLink (.refl _)
  | resetPinAsserted => cases e; exact here.apart rfl rfl (.refl _)
  | keySample prev next mark seek call => exact outcome_of_ite here ((here.setNav _).pressKeys _) e
  | timeout slot => exact execTimeout_reacts e
  | sweepVisit => exact execSweepVisit_reacts e
  | blinkTimerExpiry => exact outcome_of_ite here ((here.setComp _).recompose _) e
  | refillUnitArrival => exact outcome_of_ite here (here.setDrive _).startIfCharged e
  | strokeStart => exact outcome_of_ite here here.startIfCharged e
  | strokeCompletion sensed => exact execStrokeCompletion_reacts e
  | supplyFall => exact outcome_of_ite (supply .low) (supply .low).supplyLost e
  | supplyRise => exact outcome_of_ite (supply .ok) (supply .ok).supplyBack e
  | _ => cases other

end Sys2Proof.Machine
end

section
/-! SUPPORT. The rows that put a calendar, a zone's record, touch settings or reset values: the calendar goes on being one that
SET CALENDAR accepts, the zones and the settings stay in their ranges, and the notices distinct (R153, R154, R156, R166, R168 to
R179, R186). -/

namespace Sys2Proof.Machine

/-- The three invariants together. -/
structure State.Ordered (s t : State) : Prop where
  calendar : s.CalendarSound → t.CalendarSound
  touch : s.TouchSound → t.TouchSound
  notices : s.NoticesDistinct → t.NoticesDistinct

section
variable {s t u : State}

theorem State.Reacts.ordered (h : s.Reacts t) : s.Ordered t := ⟨h.calendarSound, h.touchSound, h.noticesDistinct⟩

theorem State.Ordered.trans (h : s.Ordered t) (k : t.Ordered u) : s.Ordered u :=
  ⟨k.calendar ∘ h.calendar, k.touch ∘ h.touch, k.notices ∘ h.notices⟩

/-! ### SET CALENDAR (R154) -/

/-- R154: a slot of a good calendar starts at the first line of its range. -/
theorem newSlot_sound {i : Nat} {x : SlotArgs} (good : slotGood i x = true) (band : Fin 8) : (newSlot band x).Sound i band := by
  obtain ⟨least, most, follow, first, range⟩ := slotGood_iff.mp good
  rcases Nat.le_one_iff_eq_zero_or_eq_one.mp follow with fixed | follows
  · obtain ⟨-, last, order⟩ := range.resolve_left (by omega)
    have start : (Fin.ofNat 32 x.first).val = x.first := Nat.mod_eq_of_lt (by omega)
    refine ⟨least, most, ?_, fun _ => ⟨order, last⟩, ?_⟩
    · simp [newSlot, fixed]
    · have range : ((newSlot band x).range band) = (x.first, x.last) := by simp [newSlot, fixed, CalendarSlot.range]
      have cursor : (newSlot band x).cursor.val = x.first := by simpa [newSlot, fixed] using start
      rw [range, cursor]
      exact ⟨le_refl _, order⟩
  · refine ⟨least, most, fun _ => first.resolve_left (by omega), ?_, ?_⟩
    · simp [newSlot, follows]
    · simp [newSlot, follows, CalendarSlot.range, firstLineOfBand]

theorem Calendar.replace_soundIn {c : Calendar} {slots : List SlotArgs} (good : calendarGood slots = true)
    (quiet : c.quiet.Nodup) (band : Fin 8) : (c.replace band slots).SoundIn (· = band) := by
  obtain ⟨one, few, each, lines⟩ := calendarGood_iff.mp good
  obtain ⟨first, listed⟩ : ∃ x, slots[0]? = some x := ⟨_, List.getElem?_eq_getElem one⟩
  obtain ⟨least, -⟩ := slotGood_iff.mp (each 0 first listed)
  refine ⟨by simpa [Calendar.replace] using one, by simpa [Calendar.replace] using few, fun i sl now => ?slots, fun l => ?lines,
    ⟨newSlot band first, ?_, ?_⟩, fun _ => ?_, quiet, nofun⟩
  case slots =>
    obtain ⟨x, was, rfl⟩ := Option.map_eq_some_iff.mp ((List.getElem?_map ..).symm.trans now)
    exact ⟨band, rfl, newSlot_sound (each i x was) band⟩
  case lines =>
    obtain ⟨x, mem, fixed, reaches⟩ := lines l.val l.isLt
    exact ⟨newSlot band x, List.mem_map_of_mem mem, by simp [newSlot, fixed], reaches⟩
  · simp [Calendar.replace, listed]
  · simp [Calendar.replace, listed, newSlot]
  · simpa [Calendar.replace, listed] using least

theorem setCalendarRule_ordered (p : List Byte) : s.Ordered (setCalendarRule p s).1 := by
  have still : s.Ordered s := State.Reacts.refl.ordered
  unfold setCalendarRule
  split
  · exact still
  · simp only
    split
    · rename_i accepted
      refine ⟨fun sound => ?_, id, id⟩
      rw [State.calendarSound_iff] at sound ⊢
      exact Calendar.replace_soundIn accepted.2 sound.quiet _
    · exact still

/-! ### SET TOUCH (R177) -/

theorem setTouchRule_ordered (p : List Byte) : s.Ordered (setTouchRule p s).1 := by
  have still : s.Ordered s := State.Reacts.refl.ordered
  unfold setTouchRule
  split
  · split
    · rename_i good
      obtain ⟨tOn, tOn', tOff, -, order, limit, limit'⟩ := touchSettingsGood_iff.mp good
      refine ⟨id, fun ⟨zones, _⟩ => ⟨fun z => ?_, tOn, tOn', tOff, order, limit, limit'⟩, id⟩
      obtain ⟨baseline, -, hold, unread⟩ := zones z
      simpa [Touch.configure] using ⟨baseline, hold, unread⟩
    · exact still
  · exact still

/-! ### Readings and hold timers (R168 to R173) -/

/-- R169: a tracked baseline lies between the old one and the reading. -/
theorem trackBaseline_le {state : ZoneState} {base m tOff : Nat} (old : base ≤ 4095) (reading : m ≤ 4095) :
    trackBaseline state base ((m : Int) - base) tOff ≤ 4095 := by
  have step : ((m : Int) - base).tdiv 16 ≤ 0 ∨ ((m : Int) - base).tdiv 16 ≤ (m : Int) - base := by
    rcases Int.le_total 0 ((m : Int) - base) with up | down
    · exact .inr (by rw [Int.tdiv_eq_ediv_of_nonneg up]; omega)
    · have back := Int.tdiv_nonneg (a := -((m : Int) - base)) (b := 16) (by omega) (by decide)
      rw [Int.neg_tdiv] at back
      exact .inl (by omega)
  unfold trackBaseline
  split
  · omega
  · exact old

/-- R168 to R170: a reading leaves a record in its ranges. -/
theorem Zone.Sound.read {x : Zone} (h : x.Sound) {m : Nat} (reading : m ≤ 4095) (tOn tOff : Nat) :
    (x.read m tOn tOff).1.Sound := by
  obtain ⟨baseline, run, hold, unread⟩ := h
  unfold Zone.read
  split
  · rename_i first
    exact ⟨by rintro b ⟨⟩; exact reading, run, hold, nofun⟩
  · rename_i base later
    have tracked : ∀ b ∈ some (trackBaseline x.state base ((m : Int) - base) tOff), b ≤ 4095 := by
      rintro b ⟨⟩
      exact trackBaseline_le (baseline base later) reading
    simp only
    split
    · exact ⟨tracked, Nat.zero_le 2, hold, nofun⟩
    · split
      · rename_i early
        exact ⟨tracked, early, hold, nofun⟩
      · split
        · exact ⟨tracked, Nat.zero_le 2, fun _ => rfl, nofun⟩
        · exact ⟨tracked, Nat.zero_le 2, fun running => absurd rfl running, nofun⟩
        · exact ⟨tracked, Nat.zero_le 2, fun running => absurd rfl running, nofun⟩

/-- R171, R174: the record that a zone takes, and what is told of it. -/
theorem State.zoneTakes_eq (z : Fin 16) (x : Zone) (changed : Bool) : s.zoneTakes z (x, changed) =
    if changed then
      if x.state = .touched then
        (s.putZone z x (bandOfZone z)).zoneChanged z (s.touch.band != bandOfZone z)
      else (s.putZone z x s.touch.band).zoneChanged z false
    else s.putZone z x s.touch.band := by
  simp only [State.zoneTakes]
  rfl

/-- R156, R171: being told of a zone's change touches no zone's record but to start hold timers, and posts one notice more; the
calendar is sound again when the follow slot's cursor has gone to the new reading band. -/
theorem State.zoneChanged_ordered {z : Fin 16} {bandChanged : Bool} (calendar : s.CalendarSound → u.cal.SoundIn fun _ => True)
    (same : bandChanged = false → s.CalendarSound → u.CalendarSound) (touch : s.TouchSound → u.TouchSound)
    (notices : s.NoticesDistinct → u.NoticesDistinct) : s.Ordered (u.zoneChanged z bandChanged) := by
  have woken := State.Reacts.refl.zoneWoken (a := u) z
  rw [State.zoneChanged_woken]
  generalize u.zoneWoken z = w at woken
  refine State.Ordered.trans ?_ (State.Reacts.refl.post _).ordered
  cases bandChanged with
  | true => exact ⟨fun h => State.calendarSound_iff.mpr ((woken.soundIn trivial (calendar h)).followBand _),
      fun h => woken.touchSound (touch h), fun h => woken.noticesDistinct (notices h)⟩
  | false => exact ⟨fun h => woken.calendarSound (same rfl h), fun h => woken.touchSound (touch h),
      fun h => woken.noticesDistinct (notices h)⟩

/-- R171, R174: a zone takes a record in its ranges. -/
theorem State.zoneTakes_ordered {z : Fin 16} {x : Zone} (changed : Bool) (sound : s.TouchSound → x.Sound) :
    s.Ordered (s.zoneTakes z (x, changed)) := by
  have zones : ∀ band, s.TouchSound → (s.putZone z x band).TouchSound := fun band h => by
    obtain ⟨zones, settings⟩ := id h
    refine ⟨fun y => ?_, settings⟩
    have put : (s.putZone z x band).touch.zones[y] = if y = z then x else s.touch.zones[y] := getElem_set_fin _ _ _ _
    rw [put]
    split
    · exact sound h
    · exact zones y
  have told : ∀ (band : Fin 8) (changed : Bool), (changed = false → band = s.touch.band) →
      s.Ordered ((s.putZone z x band).zoneChanged z changed) := fun band changed same =>
    State.zoneChanged_ordered (u := s.putZone z x band)
      (fun calendar => (State.calendarSound_iff.mp calendar).mono fun _ _ => trivial)
      (fun unchanged calendar => by rw [same unchanged]; exact calendar) (zones band) id
  rw [State.zoneTakes_eq]
  split
  · split
    · exact told (bandOfZone z) _ fun unchanged => (by simpa using unchanged : s.touch.band = bandOfZone z).symm
    · exact told s.touch.band false fun _ => rfl
  · exact ⟨id, zones s.touch.band, id⟩

/-! ### Resets (R153, R166, R179, R189) -/

theorem State.resetBlocks_ordered (s u : State) (kind : ResetKind) : s.Ordered (u.resetBlocks kind) := by
  obtain ⟨-, -, -, -, -, -, -, calendar, touch, notices, -⟩ := State.reset_safe
  exact ⟨fun _ => calendar, fun _ => touch, fun _ => notices⟩

/-! ### The length of the queue (R184, R186) -/

/-- The kinds of notice with their subjects: STREAM_FAULT has one for each slot. -/
def noticeSlots : List (Nat × Nat) :=
  [(1, 0), (2, 0), (2, 1), (3, 0), (4, 0), (5, 0), (6, 0), (7, 0), (8, 0), (9, 0)]

theorem Notice.slot_mem (n : Notice) : n.slot ∈ noticeSlots := by
  cases n with
  | streamFault slot error offset =>
    have either : slot = 0 ∨ slot = 1 := by omega
    rcases either with rfl | rfl
    · exact List.mem_of_elem_eq_true rfl
    · exact List.mem_of_elem_eq_true rfl
  | _ => exact List.mem_of_elem_eq_true rfl

/-- R186: with no kind and subject queued twice there are at most ten notices. -/
theorem State.NoticesDistinct.length_le (distinct : s.NoticesDistinct) : s.link.notices.length ≤ 10 := by
  have listed : s.link.notices.map Notice.slot ⊆ noticeSlots := fun x mem => by
    obtain ⟨n, -, rfl⟩ := List.mem_map.mp mem
    exact n.slot_mem
  simpa [noticeSlots] using (List.subperm_of_subset distinct listed).length_le

/-! ### Every row -/

theorem State.take_ordered {code : Byte} {b : CommandBody} {owner : List Byte → State → State × Reply}
    (rule : ∀ p, s.Ordered (owner p s).1) (taken : s.take code b owner = .next t) : s.Ordered t := by
  have answered : ∀ (u : State) c tag status payload, u.Ordered (u.answer c tag status payload) :=
    fun _ _ _ _ _ => ⟨id, id, id⟩
  rcases State.take_cases owner taken with ⟨-, -, rfl⟩ | ⟨-, -, rfl⟩ | ⟨-, rfl⟩
  · exact (rule b.payload).trans (answered _ _ _ _ _)
  · exact answered _ _ _ _ _
  · exact State.Reacts.refl.ordered

/-- R173: the timer of a TOUCHED zone, whose baseline has been read, expires. -/
theorem execHoldTimerExpiry_ordered {zone : Fin 16} (e : execHoldTimerExpiry zone s = .next t) : s.Ordered t := by
  unfold execHoldTimerExpiry at e
  simp only at e
  split at e
  · cases e
    exact State.Reacts.refl.ordered
  · rename_i runs
    cases e
    refine State.zoneTakes_ordered true fun sound => ?_
    obtain ⟨baseline, run, -, unread⟩ := sound.1 zone
    refine ⟨baseline, run, fun running => absurd rfl running, fun none => absurd (unread none) fun clear => ?_⟩
    simp [clear, -Fin.getElem_fin] at runs

theorem exec_ordered {c : Instr} (e : exec c s = .next t) : s.Ordered t := by
  have still : s.Ordered s := State.Reacts.refl.ordered
  cases puts : putsRecords c with
  | false => exact (exec_reacts puts e).ordered
  | true =>
    cases c with
    | setCalendar b => exact State.take_ordered setCalendarRule_ordered e
    | setTouch b => exact State.take_ordered setTouchRule_ordered e
    | resetCommand b => exact State.take_ordered (fun _ => s.resetBlocks_ordered s .command) e
    | powerOnReset => cases e; exact s.resetBlocks_ordered s .powerOn
    | pinReset => cases e; exact s.resetBlocks_ordered { s with resetPin := false } .pin
    | zoneReading zone count =>
      refine outcome_of_ite still (State.zoneTakes_ordered _ fun sound => ?_) e
      exact Zone.Sound.read (sound.1 zone) (Nat.le_of_lt_succ count.isLt) _ _
    | holdTimerExpiry zone => exact execHoldTimerExpiry_ordered e
    | _ => cases puts

end
end Sys2Proof.Machine

section
open Sys2Proof Sys2Proof.Machine

/-- Settles O58: a row that puts no record only lets the blocks react, and each of the others puts one in its ranges. -/
theorem stepKeepsCalendarZonesAndNotices : Obligations.StepKeepsCalendarZonesAndNotices := by
  intro s t stepped
  have kept : s.Ordered t := by
    unfold step at stepped
    split at stepped
    · cases stepped
      exact State.Reacts.refl.ordered
    · have taken := exec_ordered stepped
      exact ⟨taken.calendar, taken.touch, taken.notices⟩
  refine ⟨kept.calendar, kept.touch, fun distinct => ?_⟩
  have still := kept.notices distinct
  exact ⟨still, State.NoticesDistinct.length_le still⟩

end
end

section
/-! SUPPORT. PAUSE DRIVE, RESUME DRIVE and SURVEY by the state of the scheduler and the drive (R162 to R164). -/

namespace Sys2Proof.Machine

/-- R163: a command that its rule always takes is answered with OK. -/
theorem State.take_taken {s t : State} {code tag : Byte} {rule : List Byte → State → State × Reply}
    (accepts : s.Accepts code (frameOf tag [])) (allowed : lengthAllowed code 0 = true) (answers : rule [] s = taken t) :
    s.take code (frameOf tag []) rule = .next (t.answer code tag .ok []) :=
  State.take_frameOf accepts allowed answers

theorem DriveCondition.flying_iff {c : DriveCondition} : c.flying = true ↔ ∃ p, c = .inFlight p := by
  cases c with
  | inFlight p => exact ⟨fun _ => ⟨p, rfl⟩, fun _ => rfl⟩
  | noPlan | waitCharge p => exact ⟨nofun, nofun⟩

section
variable {s : State}

/-! ### PAUSE DRIVE (R163) -/

theorem State.pauseDrive_withdraws (work : s.cal.sched = .surveying ∨ s.cal.sched = .driving)
    (grounded : ∀ p, s.drive.cond ≠ .inFlight p) : s.pauseDrive = { s with
      drive := { s.drive with cond := .noPlan }
      cal := { s.cal with hold := true, sched := .paused } } := by
  have waits : ¬ s.drive.cond.flying = true := fun flies => (DriveCondition.flying_iff.mp flies).elim grounded
  rcases work with sched | sched
  · simp only [State.pauseDrive, sched, if_neg waits]; rfl
  · simp only [State.pauseDrive, sched, if_neg waits]; rfl

theorem State.pauseDrive_idle (idle : s.cal.sched = .idle) :
    s.pauseDrive = { s with cal := { s.cal with hold := true, sched := .paused } } := by
  simp only [State.pauseDrive, idle]; rfl

theorem State.pauseDrive_flag (other : s.cal.sched = .paused ∨ s.cal.sched = .supplyLow ∨
    ((s.cal.sched = .surveying ∨ s.cal.sched = .driving) ∧ ∃ p, s.drive.cond = .inFlight p)) :
    s.pauseDrive = { s with cal := { s.cal with hold := true } } := by
  rcases other with sched | sched | ⟨sched | sched, flies⟩
  · simp only [State.pauseDrive, sched]; rfl
  · simp only [State.pauseDrive, sched]; rfl
  · simp only [State.pauseDrive, sched, if_pos (DriveCondition.flying_iff.mpr flies)]; rfl
  · simp only [State.pauseDrive, sched, if_pos (DriveCondition.flying_iff.mpr flies)]; rfl

/-! ### RESUME DRIVE (R164) -/

/-- R159: the visits of a scheduler that enters DRIVING do not depend on the state it comes from, nor on the quiet set. -/
theorem State.driveOn_from (s : State) (x : Scheduler) (quiet : List (Fin 32)) :
    ({ s with cal := { s.cal with sched := x, quiet := quiet } } : State).driveOn = s.driveOn :=
  congrArg (State.runCalendar Config.calendarFuel) rfl

theorem State.wake_idle (idle : s.cal.sched = .idle) : s.wake = s.driveOn := by rw [State.wake, idle]

theorem State.resumeDrive_surveys {r : Fin 128} (paused : s.cal.sched = .paused)
    (least : LeastIndex (fun r : Fin 128 => s.pins.known[r] = false) r) :
    s.resumeDrive = ({ s with cal := { s.cal with hold := false, sched := .surveying } } : State).surveys r := by
  simp only [State.resumeDrive, paused]
  exact State.takeUp_surveys (s := s.setCal { s.cal with hold := false }) (fun _ => rfl) least

theorem State.resumeDrive_drives
    (ready : (s.cal.sched = .paused ∧ ∀ r : Fin 128, s.pins.known[r] = true) ∨ s.cal.sched = .idle) :
    s.resumeDrive = ({ s with cal := { s.cal with hold := false, sched := .driving, quiet := [] } } : State).driveOn := by
  have entered := (s.setCal { s.cal with hold := false }).driveOn_from .driving
  rcases ready with ⟨paused, all⟩ | idle
  · simp only [State.resumeDrive, paused]
    exact (State.takeUp_drives (s := s.setCal { s.cal with hold := false }) (announce := id) all).trans
      ((entered s.cal.quiet).trans (entered []).symm)
  · have woken : s.resumeDrive = (s.setCal { s.cal with hold := false }).wake := by simp only [State.resumeDrive, idle]
    exact woken.trans ((State.wake_idle (s := s.setCal { s.cal with hold := false }) idle).trans (entered []).symm)

theorem State.resumeDrive_flag
    (other : s.cal.sched = .surveying ∨ s.cal.sched = .driving ∨ s.cal.sched = .supplyLow) :
    s.resumeDrive = { s with cal := { s.cal with hold := false } } := by
  rcases other with sched | sched | sched
  · simp only [State.resumeDrive, sched]; rfl
  · simp only [State.resumeDrive, sched]; rfl
  · simp only [State.resumeDrive, sched]; rfl

/-! ### SURVEY (R162) -/

/-- R137: an unknown row has no strokable candidate. -/
theorem State.planMoves_unknown {r : Fin 128} (unknown : s.pins.known[r] = false) : s.planMoves r = [] := by
  refine List.eq_nil_iff_forall_not_mem.mpr fun m mem => ?_
  have known := (State.planMoves_strokable mem).1.1
  rw [unknown] at known
  cases known

/-- R137, R172: an unknown row has no deferred candidate, and no zone is named. -/
theorem State.reportDeferred_unknown {r : Fin 128} (unknown : s.pins.known[r] = false) : s.reportDeferred r = s := by
  have zones : (s.reportDeferred r).touch.zones = s.touch.zones := by
    refine Vector.ext fun i hi => ?_
    refine (s.reportDeferred_zone r ⟨i, hi⟩).trans (if_neg ?_)
    rintro ⟨-, -, c, -, known, -⟩
    rw [unknown] at known
    cases known
  rw [State.reportDeferred_eq, zones]

theorem State.rowNothing_elsewhere (other : s.cal.sched ≠ .driving) : s.rowNothing = s := by
  unfold State.rowNothing
  split
  · rename_i driving _; exact absurd driving other
  · rename_i driving _; exact absurd driving other
  · rfl

/-- R142, R162: with every row unknown, a scheduler in SURVEYING withdraws a drive plan that waits. -/
theorem State.reform_unknown (surveying : s.cal.sched = .surveying) (unknown : ∀ r : Fin 128, s.pins.known[r] = false)
    (grounded : ∀ p, s.drive.cond ≠ .inFlight p) :
    ∃ c, (∀ p, c ≠ .inFlight p) ∧ s.reform (fun _ => true) = { s with drive := { s.drive with cond := c } } := by
  by_cases waiting : ∃ p, s.drive.cond = .waitCharge p ∧ p.kind = .drive
  · obtain ⟨p, waits, drive⟩ := waiting
    refine ⟨.noPlan, nofun, ?_⟩
    have none := State.planMoves_unknown (unknown p.row)
    rw [State.reform_waiting waits drive rfl rfl, if_pos none, State.askDrive_noMove none,
      State.reportDeferred_unknown (unknown p.row)]
    exact State.rowNothing_elsewhere (by rw [surveying]; nofun)
  · refine ⟨s.drive.cond, grounded, State.reform_elsewhere fun p waits drive => ?_⟩
    exact absurd ⟨p, waits, drive⟩ waiting

/-- R139: the survey takes the place of what the drive held. -/
theorem State.surveys_replaces (s : State) (c : DriveCondition) (r : Fin 128) :
    ({ s with drive := { s.drive with cond := c } } : State).surveys r = s.surveys r := rfl

theorem PinField.allUnknown_least (p : PinField) : LeastIndex (fun r : Fin 128 => p.allUnknown.known[r] = false) 0 :=
  ⟨Vector.getElem_replicate _, fun _ below => absurd below (Fin.not_lt_zero _)⟩

section
variable {t : State} (ht : t = { s with pins := { s.pins with known := Vector.replicate 128 false } })
include ht

theorem State.surveyAll_flag (other : s.cal.sched = .surveying ∨ s.cal.sched = .paused ∨ s.cal.sched = .supplyLow) :
    s.surveyAll = t := by
  subst ht
  rcases other with sched | sched | sched
  · simp only [State.surveyAll, sched]; rfl
  · simp only [State.surveyAll, sched]; rfl
  · simp only [State.surveyAll, sched]; rfl

theorem State.surveyAll_driving (driving : s.cal.sched = .driving) {u : State}
    (hu : u = { t with cal := { s.cal with sched := .surveying } }) : s.surveyAll =
      if (u.reform fun _ => true).drive.cond.flying then u.reform fun _ => true
      else (u.reform fun _ => true).requestSurvey := by
  subst ht hu
  simp only [State.surveyAll, driving]
  rfl

theorem State.surveyAll_flying {p : Plan} (driving : s.cal.sched = .driving) (flies : s.drive.cond = .inFlight p) :
    s.surveyAll = { t with cal := { s.cal with sched := .surveying } } := by
  have drive : t.drive = s.drive := by rw [ht]
  rw [State.surveyAll_driving ht driving rfl, State.reform_elsewhere]
  · exact if_pos (DriveCondition.flying_iff.mpr ⟨p, by rw [drive]; exact flies⟩)
  · intro q waits
    rw [drive, flies] at waits
    cases waits

theorem State.surveyAll_surveys
    (free : s.cal.sched = .idle ∨ (s.cal.sched = .driving ∧ ∀ p, s.drive.cond ≠ .inFlight p)) :
    s.surveyAll = ({ t with cal := { s.cal with sched := .surveying } } : State).surveys 0 := by
  generalize hu : ({ t with cal := { s.cal with sched := .surveying } } : State) = u
  have least : LeastIndex (fun r : Fin 128 => u.pins.known[r] = false) 0 := by
    subst hu ht
    exact s.pins.allUnknown_least
  rcases free with idle | ⟨driving, grounded⟩
  · have entered : s.surveyAll = u.requestSurvey := by
      subst hu ht
      simp only [State.surveyAll, idle]
      rfl
    rw [entered, State.requestSurvey_least least]
  · have unknown : ∀ r : Fin 128, u.pins.known[r] = false := fun r => by
      subst hu ht
      exact Vector.getElem_replicate _
    obtain ⟨c, waits, formed⟩ := State.reform_unknown (s := u) (by rw [← hu]) unknown (by rw [← hu, ht]; exact grounded)
    have still : ¬ c.flying = true := fun flies => (DriveCondition.flying_iff.mp flies).elim waits
    rw [State.surveyAll_driving ht driving hu.symm, formed, if_neg still, ← u.surveys_replaces c]
    exact State.requestSurvey_least least

end
end
end Sys2Proof.Machine

section
open Sys2Proof Sys2Proof.Machine

/-- Settles O43: each command by the scheduler state and by whether a stroke is in flight. -/
theorem holdAndSurvey : Obligations.HoldAndSurvey := by
  rintro s b tag rfl
  refine ⟨fun accepts => ?pause, fun accepts => ?resume, fun accepts t ht => ?survey⟩
  case pause =>
    have paused : ∀ {u}, s.pauseDrive = u → exec (.pauseDrive (frameOf tag [])) s = .next (u.answer 0x51 tag .ok []) :=
      fun e => State.take_taken accepts rfl (congrArg taken e)
    exact ⟨fun work grounded => paused (State.pauseDrive_withdraws work grounded),
      fun idle => paused (State.pauseDrive_idle idle), fun other => paused (State.pauseDrive_flag other)⟩
  case resume =>
    have resumed : ∀ {u}, s.resumeDrive = u → exec (.resumeDrive (frameOf tag [])) s = .next (u.answer 0x52 tag .ok []) :=
      fun e => State.take_taken accepts rfl (congrArg taken e)
    exact ⟨fun r paused least => resumed (State.resumeDrive_surveys paused least),
      fun ready => ⟨_, _, rfl, rfl, PinPath.driveOn _ rfl, resumed (State.resumeDrive_drives ready)⟩,
      fun other => resumed (State.resumeDrive_flag other)⟩
  case survey =>
    have surveyed : ∀ {u}, s.surveyAll = u → exec (.survey (frameOf tag [])) s = .next (u.answer 0x53 tag .ok []) :=
      fun e => State.take_taken accepts rfl (congrArg taken e)
    exact ⟨fun other => surveyed (State.surveyAll_flag ht other),
      fun p driving flies => surveyed (State.surveyAll_flying ht driving flies),
      fun free => surveyed (State.surveyAll_surveys ht free)⟩

end
end

section
/-! SUPPORT. The moves of one event come to an end: from any sound calendar, moves that all go on would fill the quiet set and
end another quiet visit within 4,013 (R155, R158, R159; log entry 18). -/

namespace Sys2Proof.Machine

/-- `u` is `s` after a number of moves that all go on. -/
inductive State.GoesOn : State → Nat → State → Prop
  | here (s : State) : s.GoesOn 0 s
  | next {s t u : State} {n : Nat} (h : s.calendarMove = (t, true)) (k : t.GoesOn n u) : s.GoesOn (n + 1) u

namespace State.GoesOn

variable {s t u : State} {n : Nat}

theorem split (h : s.GoesOn n u) {m : Nat} (le : m ≤ n) : ∃ t, s.GoesOn m t ∧ t.GoesOn (n - m) u := by
  induction h generalizing m with
  | here s => exact ⟨s, by rw [Nat.le_zero.mp le]; exact .here s, by simpa using .here s⟩
  | @next s t u n moved k ih =>
    cases m with
    | zero => exact ⟨s, .here s, .next moved k⟩
    | succ m =>
      obtain ⟨v, before, after⟩ := ih (Nat.le_of_succ_le_succ le)
      exact ⟨v, .next moved before, by rwa [Nat.succ_sub_succ]⟩

theorem reacts (h : s.GoesOn n u) : s.Reacts u := by
  suffices ∀ a : State, a.Reacts s → a.Reacts u from this s .refl
  induction h with
  | here s => exact fun _ h => h
  | next moved _ ih =>
    intro a h
    have step := h.calendarMove
    rw [moved] at step
    exact ih a step

theorem ticks (h : s.GoesOn n u) : u.cal = s.cal.ticks s.touch.band n := by
  induction h with
  | here s => rfl
  | next moved _ ih =>
    obtain ⟨cal, band, -⟩ := State.calendarMove_true moved
    rw [ih, cal, band]
    rfl

end State.GoesOn

/-- A run of moves comes to its end within the bound, or goes on beyond it. -/
theorem State.moves_or_goesOn (n : Nat) (s : State) : s.Moves (State.runCalendar n s) ∨ ∃ u, s.GoesOn n u := by
  induction n generalizing s with
  | zero => exact .inr ⟨s, .here s⟩
  | succ n ih =>
    unfold State.runCalendar
    split
    · rename_i t moved
      exact (ih t).imp (.next moved) fun ⟨u, k⟩ => ⟨u, .next moved k⟩
    · rename_i t moved
      exact .inl (.last moved)

/-! ### The end of a visit -/

/-- R158: moves that go on bring a visit through its rows to its end. -/
theorem Calendar.visit_ends {band : Fin 8} (n : Nat) :
    ∀ {c : Calendar} {v : LineVisit}, c.visit = some v → v.row.val + n = 3 → (c.ticks band (n + 1)).visit = none := by
  induction n with
  | zero =>
    intro c v stands last
    have row : v.row = 3 := Fin.ext last
    simp only [Calendar.ticks, Calendar.tick, stands, row, if_true]
    exact (Calendar.passTurn_frame _).2.2.2.1
  | succ n ih =>
    intro c v stands early
    have row : v.row ≠ 3 := fun last => by simp only [last] at early; omega
    have ticked : (c.tick band).visit = some { v with row := v.row + 1, strokes := 0 } := by
      simp only [Calendar.tick, stands, if_neg row]
    refine ih (c := c.tick band) ticked ?_
    have value : (v.row + 1).val = v.row.val + 1 := Fin.val_add_one_of_lt' (by omega)
    simp only [value]
    omega

theorem Calendar.ends_soon (c : Calendar) (band : Fin 8) : ∃ n ≤ 4, (c.ticks band n).visit = none := by
  cases visit : c.visit with
  | none => exact ⟨0, Nat.zero_le 4, visit⟩
  | some v => exact ⟨3 - v.row.val + 1, by omega, Calendar.visit_ends (c := c) _ visit (by omega)⟩

/-- From the end of a visit, whole visits lead to the end of a visit. -/
theorem Calendar.ticks_visits {band : Fin 8} (n : Nat) : ∀ {c : Calendar}, c.visit = none →
    (c.ticks band (5 * n)).visit = none := by
  induction n with
  | zero => exact id
  | succ n ih =>
    intro c ended
    rw [Nat.mul_succ, Nat.add_comm, Calendar.ticks_add, Calendar.ticks_visit ended]
    exact ih (Calendar.passTurn_frame _).2.2.2.1

/-! ### The quiet set is filled -/

section
variable {s t : State} (sound : s.CalendarSound)
include sound

/-- R153, R154: at the end of a visit a sound calendar has a slot that reaches a line. -/
theorem State.CalendarSound.reaches (ended : s.cal.visit = none) (l : Fin 32) : ∃ i sl, s.cal.Reaches i sl l.val := by
  obtain ⟨-, few, slots, lines, ⟨current, turn, left⟩, some, -⟩ := State.calendarSound_iff.mp sound
  have counts : ∀ x ∈ s.cal.slots, 1 ≤ x.count ∧ x.count ≤ 8 := fun x mem => by
    obtain ⟨i, listed⟩ := List.getElem?_of_mem mem
    obtain ⟨_, -, least, most, -⟩ := slots i x listed
    exact ⟨least, most⟩
  obtain ⟨sl, mem, fixed, low, high⟩ := lines l
  obtain ⟨i, listed⟩ := List.getElem?_of_mem mem
  obtain ⟨band, -, -, -, -, own, cursor⟩ := slots i sl listed
  simp only [CalendarSlot.range, fixed, Bool.false_eq_true, if_false] at cursor
  exact ⟨i, sl, listed, fixed, ⟨low, high, (own fixed).2⟩, cursor, counts, few, (List.getElem?_eq_some_iff.mp turn).1,
    ⟨some ended, left.trans (counts current (List.mem_of_getElem? turn)).2⟩, ended⟩

/-- R159: a quiet set that holds every line has 32. -/
theorem State.CalendarSound.quiet_length (all : ∀ l, l ∈ s.cal.quiet) : s.cal.quiet.length = 32 := by
  have distinct := (State.calendarSound_iff.mp sound).quiet
  have same : s.cal.quiet.Perm (List.finRange 32) :=
    (List.perm_ext_iff_of_nodup distinct (List.nodup_finRange 32)).mpr fun l => by simp [all l]
  rw [same.length_eq, List.length_finRange]

/-- R159: with every line quiet, no further whole visit goes on. -/
theorem State.CalendarSound.settles (ended : s.cal.visit = none) (all : ∀ l, l ∈ s.cal.quiet) (goes : s.GoesOn 5 t) : False := by
  obtain ⟨w, four, last⟩ := goes.split (m := 4) (by decide)
  have stands : ∃ line, w.cal.visit = some ⟨line, 3, 0, false⟩ := by
    rw [four.ticks]
    simp [Calendar.ticks, Calendar.tick, ended, Calendar.beginVisit]
  obtain ⟨line, visit⟩ := stands
  cases last with
  | next moved rest =>
    cases rest
    obtain ⟨-, -, notFull⟩ := State.calendarMove_true moved
    refine notFull _ visit rfl rfl ((goes.reacts.calendarSound sound).quiet_length fun l => ?_)
    rw [goes.ticks]
    exact Calendar.mem_quiet_ticks _ (all l)

/-- R158, R159: the moves of one event end within the bound (log entry 18). -/
theorem State.CalendarSound.moves : s.Moves (State.runCalendar Config.calendarFuel s) := by
  refine (State.moves_or_goesOn _ s).resolve_right ?_
  rintro ⟨u, goes⟩
  obtain ⟨n, soon, ended⟩ := s.cal.ends_soon s.touch.band
  obtain ⟨v, first, goes⟩ := goes.split (m := n) (soon.trans (by decide))
  rw [← first.ticks] at ended
  have soundV := first.reacts.calendarSound sound
  have more : 4005 ≤ Config.calendarFuel - n := Nat.le_sub_of_add_le (Nat.add_le_add_left soon _ |>.trans (by decide))
  obtain ⟨w, fills, goes⟩ := goes.split (m := 4000) (Nat.le_trans (by decide) more)
  obtain ⟨x, visit, -⟩ := goes.split (m := 5) (by omega)
  refine (fills.reacts.calendarSound soundV).settles ?_ (fun l => ?_) visit
  · rw [fills.ticks]
    exact Calendar.ticks_visits 800 ended
  · obtain ⟨i, sl, reaches⟩ := State.CalendarSound.reaches soundV ended l
    rw [fills.ticks]
    exact reaches.quiet_all _

end
end Sys2Proof.Machine
end

section
/-! SUPPORT. The single moves of the calendar in closed form: the beginning of a visit, its rows and its end, settling with its
two counts, and waking (R155, R158 to R160). -/

namespace Sys2Proof.Machine

/-! ### The candidates of SETTLE (R116, R159) -/

theorem State.stuckCandidates_getLsbD (s : State) (r : Fin 128) (c : Fin 80) :
    (s.stuckCandidates r).getLsbD c.val = true ↔ s.pins.known[r] = true ∧
      s.comp.target[r].getLsbD c.val ≠ s.pins.confirmed[r].getLsbD c.val ∧ ∃ f ∈ s.pins.faults, f.row = r ∧ f.col = c := by
  have candidate : (s.candidates r).getLsbD c.val = true ↔
      s.pins.known[r] = true ∧ s.comp.target[r].getLsbD c.val ≠ s.pins.confirmed[r].getLsbD c.val := by
    unfold State.candidates
    split
    · rename_i known; simp [known, -Fin.getElem_fin]
    · rename_i known; simp [known, -Fin.getElem_fin]
  rw [State.stuckCandidates, BitVec.getLsbD_and, Bool.and_eq_true, candidate, PinField.stuckColumns_getLsbD, and_assoc]

/-- The columns of a set, counted by a predicate that says which they are. -/
theorem columnsOf_length {x : PinRow} {p : Fin 80 → Bool} (same : ∀ c, p c = x.getLsbD c.val) :
    (columnsOf x).length = (List.finRange 80).countP p := by
  rw [columnsOf, ← List.countP_eq_length_filter]
  exact List.countP_congr fun c _ => by rw [same]

theorem State.settleNotice_eq {s : State} {deferred stuck : Fin 128 → Fin 80 → Bool}
    (hdeferred : ∀ r c, deferred r c = true ↔ s.Deferred r c)
    (hstuck : ∀ r c, stuck r c = true ↔ s.pins.known[r] = true ∧
      s.comp.target[r].getLsbD c.val ≠ s.pins.confirmed[r].getLsbD c.val ∧ ∃ f ∈ s.pins.faults, f.row = r ∧ f.col = c) :
    s.settleNotice = .settle ((List.finRange 128).map fun r => (List.finRange 80).countP (deferred r)).sum
      ((List.finRange 128).map fun r => (List.finRange 80).countP (stuck r)).sum := by
  have first : ∀ r, (columnsOf (s.deferred r)).length = (List.finRange 80).countP (deferred r) := fun r =>
    columnsOf_length fun c => Bool.eq_iff_iff.mpr ((hdeferred r c).trans (s.deferred_getLsbD r c).symm)
  have second : ∀ r, (columnsOf (s.stuckCandidates r)).length = (List.finRange 80).countP (stuck r) := fun r =>
    columnsOf_length fun c => Bool.eq_iff_iff.mpr ((hstuck r c).trans (s.stuckCandidates_getLsbD r c).symm)
  simp only [State.settleNotice, first, second]

/-! ### The beginning of a visit (R155) -/

section
variable {s : State}

/-- R155: the cursor that the current slot goes on to. -/
theorem State.CalendarSound.begins (sound : s.CalendarSound) {c : CalendarSlot} (ended : s.cal.visit = none)
    (turn : s.cal.slots[s.cal.current]? = some c) : ∃ next : Fin 32,
    next.val = (if c.cursor.val = (if c.follow then 4 * s.touch.band.val + 3 else c.last) then
      (if c.follow then 4 * s.touch.band.val else c.first) else c.cursor.val + 1) ∧
    s.calendarMove = ({ s with cal := { s.cal with
      slots := s.cal.slots.set s.cal.current { c with cursor := next }
      visitsLeft := s.cal.visitsLeft - 1
      visit := some ⟨c.cursor, 0, 0, false⟩ } }, true) := by
  obtain ⟨_, rfl, slot⟩ := (State.calendarSound_iff.mp sound).slots _ c turn
  refine ⟨c.nextCursor s.touch.band, ?next, ?moved⟩
  case next =>
    have first : (c.range s.touch.band).1 = if c.follow then 4 * s.touch.band.val else c.first := apply_ite Prod.fst _ _ _
    have last : (c.range s.touch.band).2 = if c.follow then 4 * s.touch.band.val + 3 else c.last := apply_ite Prod.snd _ _ _
    obtain ⟨-, -, -, -, low, high⟩ := id slot
    rw [CalendarSlot.Sound.nextCursor_val slot, ← first, ← last]
    split <;> split <;> omega
  case moved =>
    have slots : s.cal.slots.modify s.cal.current (fun sl => { sl with cursor := sl.nextCursor s.touch.band }) =
        s.cal.slots.set s.cal.current { c with cursor := c.nextCursor s.touch.band } := by
      rw [List.modify_eq_set_getElem?, turn]
      rfl
    simp only [State.calendarMove, ended, Calendar.beginVisit, turn, slots, Option.map_some, Option.getD_some]
    rfl

/-- R139, R158: the Planner is asked for the row on which the visit stands. -/
theorem State.calendarMove_asks {v : LineVisit} (stands : s.cal.visit = some v) : s.calendarMove =
    if s.planMoves (pinRow v.line v.row) = [] then (s.askDrive (pinRow v.line v.row)).1.rowDone v
    else ((s.askDrive (pinRow v.line v.row)).1, false) := by
  by_cases idle : s.planMoves (pinRow v.line v.row) = []
  · simp only [State.calendarMove, stands, State.askDrive_noMove idle, idle, if_true]
  · simp only [State.calendarMove, stands, State.askDrive_moves idle rfl, idle, if_false]

/-! ### The rows of a visit and its end (R155, R158, R159) -/

theorem State.countStroke_eq (s : State) (v : LineVisit) : s.countStroke v = if v.strokes < 3 then
    ({ s with cal := { s.cal with visit := some { v with strokes := v.strokes + 1 } } }, true) else s.rowDone v :=
  if_congr (by simp only [Config.strokesPerRow]; omega) rfl rfl

theorem State.rowDone_next {v : LineVisit} (early : v.row ≠ 3) : s.rowDone v =
    ({ s with cal := { s.cal with visit := some { v with row := v.row + 1, strokes := 0 } } }, true) :=
  if_neg early

/-- R155: the turn passes to the next slot in list order, the last being followed by the first. -/
theorem Calendar.passTurn_eq {c : Calendar} (inside : c.current < c.slots.length) : c.passTurn = { c with
    current := if c.visitsLeft = 0 then (c.current + 1) % c.slots.length else c.current
    visitsLeft := if c.visitsLeft = 0 then
        ((c.slots[(c.current + 1) % c.slots.length]?).map CalendarSlot.count).getD 1
      else c.visitsLeft } := by
  have next : (if c.current + 1 < c.slots.length then c.current + 1 else 0) = (c.current + 1) % c.slots.length := by
    split
    · rename_i more; exact (Nat.mod_eq_of_lt more).symm
    · rename_i last
      rw [show c.current + 1 = c.slots.length by omega, Nat.mod_self]
  unfold Calendar.passTurn
  rw [next]
  split
  · rfl
  · rfl

/-- R155, R159: the state after the visit's end, before it may settle. -/
def State.visitEnded (s : State) (quiet : List (Fin 32)) : State :=
  { s with cal := { s.cal with
    visit := none
    quiet := quiet
    current := if s.cal.visitsLeft = 0 then (s.cal.current + 1) % s.cal.slots.length else s.cal.current
    visitsLeft := if s.cal.visitsLeft = 0 then
        ((s.cal.slots[(s.cal.current + 1) % s.cal.slots.length]?).map CalendarSlot.count).getD 1
      else s.cal.visitsLeft } }

theorem State.rowDone_last {v : LineVisit} {quiet : List (Fin 32)} (sound : s.CalendarSound) (last : v.row = 3)
    (joined : quiet = if v.started = true ∨ v.line ∈ s.cal.quiet then s.cal.quiet else s.cal.quiet ++ [v.line]) :
    s.rowDone v = if v.started = false ∧ quiet.length = 32 then ((s.visitEnded quiet).enterIdle, false)
      else (s.visitEnded quiet, true) := by
  obtain ⟨current, turn, -⟩ := (State.calendarSound_iff.mp sound).turn
  have inside : s.cal.current < s.cal.slots.length := (List.getElem?_eq_some_iff.mp turn).1
  have joins : (if v.started then s.cal.quiet else joinQuiet s.cal.quiet v.line) = quiet := by
    rw [joined]
    cases v.started with
    | true => simp
    | false => simp [joinQuiet]
  have passed : s.setCal (Calendar.passTurn { s.cal with visit := none, quiet := quiet }) = s.visitEnded quiet :=
    congrArg s.setCal (Calendar.passTurn_eq (c := { s.cal with visit := none, quiet := quiet }) inside)
  rw [State.rowDone, if_pos last]
  simp only [State.endVisit, joins, passed]

/-- R159: the visit that fills the quiet set brings the scheduler to IDLE, and SETTLE counts what is left to move. -/
theorem State.enterIdle_eq {deferred stuck : Fin 128 → Fin 80 → Bool}
    (hdeferred : ∀ r c, deferred r c = true ↔ s.Deferred r c)
    (hstuck : ∀ r c, stuck r c = true ↔ s.pins.known[r] = true ∧
      s.comp.target[r].getLsbD c.val ≠ s.pins.confirmed[r].getLsbD c.val ∧ ∃ f ∈ s.pins.faults, f.row = r ∧ f.col = c) :
    s.enterIdle = ({ s with cal := { s.cal with sched := .idle } } : State).post
      (.settle ((List.finRange 128).map fun r => (List.finRange 80).countP (deferred r)).sum
        ((List.finRange 128).map fun r => (List.finRange 80).countP (stuck r)).sum) := by
  rw [← State.settleNotice_eq hdeferred hstuck]
  rfl

/-! ### Going on, and waking (R158 to R160) -/

/-- R159: a row that is done ends the moves by bringing the scheduler to IDLE. -/
theorem State.rowDone_stops {s : State} {v : LineVisit} (stops : (s.rowDone v).2 = false) :
    (s.rowDone v).1.cal.sched = .idle := by
  unfold State.rowDone State.endVisit at stops ⊢
  simp only at stops ⊢
  generalize (if v.started then s.cal.quiet else joinQuiet s.cal.quiet v.line) = quiet at stops ⊢
  split
  · rename_i last
    rw [if_pos last] at stops
    split
    · rw [State.enterIdle, State.post_cal]; rfl
    · rename_i goes; rw [if_neg goes] at stops; cases stops
  · rename_i early; rw [if_neg early] at stops; cases stops

/-- R158, R159: the moves of one event end with a plan held or in IDLE. -/
theorem State.Moves.ends {s t : State} (moves : s.Moves t) : t.cal.sched = .idle ∨ t.drive.cond ≠ .noPlan := by
  induction moves with
  | next _ _ ih => exact ih
  | @last s t moved =>
    cases visit : s.cal.visit with
    | none =>
      simp only [State.calendarMove, visit] at moved
      cases moved
    | some v =>
      rw [State.calendarMove_asks visit] at moved
      split at moved
      · have idle := State.rowDone_stops (congrArg Prod.snd moved)
        rw [moved] at idle
        exact .inl idle
      · rename_i some
        cases moved
        refine .inr ?_
        rw [State.askDrive_moves some rfl]
        simp only
        split
        · nofun
        · nofun

theorem State.wake_driving (driving : s.cal.sched = .driving) : s.wake = { s with cal := { s.cal with quiet := [] } } := by
  rw [State.wake, driving]; rfl

theorem State.wake_elsewhere (notDriving : s.cal.sched ≠ .driving) (notIdle : s.cal.sched ≠ .idle) : s.wake = s := by
  unfold State.wake
  split
  · rename_i driving; exact absurd driving notDriving
  · rename_i idle; exact absurd idle notIdle
  · rfl

theorem State.rowNothing_visit {v : LineVisit} (driving : s.cal.sched = .driving) (stands : s.cal.visit = some v) :
    s.rowNothing = State.goOn (s.rowDone v) := by simp only [State.rowNothing, driving, stands]

theorem State.rowNothing_begins (driving : s.cal.sched = .driving) (ended : s.cal.visit = none) :
    s.rowNothing = State.goOn (s, true) := by simp only [State.rowNothing, driving, ended, State.goOn]

end
end Sys2Proof.Machine

section
open Sys2Proof Sys2Proof.Machine

/-- Settles O46: each move in closed form, and the moves of one event end because the quiet set would be filled before the
bound. -/
theorem visitsFollowTheCalendar : Obligations.VisitsFollowTheCalendar := by
  intro s sound
  refine ⟨fun c => sound.begins, fun v => State.calendarMove_asks, fun v => ⟨s.countStroke_eq v, State.rowDone_next, ?last⟩,
    fun _ => ⟨sound.moves, rfl⟩, fun _ => rfl, fun t => State.Moves.ends, rfl, State.wake_driving, State.wake_idle,
    fun notDriving notIdle => ⟨State.wake_elsewhere notDriving notIdle, State.rowNothing_elsewhere notDriving⟩,
    fun v => State.rowNothing_visit, State.rowNothing_begins⟩
  rintro row quiet t joined rfl
  have done := State.rowDone_last sound row joined
  refine ⟨fun goes => ?goes, fun still full deferred stuck hdeferred hstuck => ?settles⟩
  case goes =>
    rw [done, if_neg]
    · rfl
    · rintro ⟨still, full⟩
      rcases goes with started | short
      · rw [started] at still; cases still
      · omega
  case settles =>
    rw [done, if_pos ⟨still, full⟩, State.enterIdle_eq (s := s.visitEnded quiet) hdeferred hstuck]
    rfl

end
end

section
/-! SUPPORT. What a posting makes of the notice queue (R186, R187). -/

namespace Sys2Proof.Machine

/-- R186: of the kinds other than KEY and PIN_FAULT the later notice replaces the queued one. -/
theorem Notice.merge_replaces {old n : Notice} (notKey : n.kindCode ≠ 5) (notPinFault : n.kindCode ≠ 7) :
    old.merge n = n := by
  unfold Notice.merge
  split
  · exact absurd rfl notKey
  · exact absurd rfl notPinFault
  · rfl

/-- R186: where no two queued notices are of one kind and subject, a posting touches the one that it merges into. -/
theorem enqueueNotice_merges {before after : List Notice} {old n : Notice}
    (distinct : ((before ++ old :: after).map Notice.slot).Nodup) (same : old.slot = n.slot) :
    enqueueNotice (before ++ old :: after) n = before ++ old.merge n :: after := by
  have queued : (before ++ old :: after).any (fun o => o.sameSubject n) = true :=
    List.any_eq_true.mpr ⟨old, by simp, (Notice.sameSubject_iff old n).mpr same⟩
  have others : ∀ o ∈ before ++ after, o.sameSubject n = false := fun o mem => by
    rw [← Bool.not_eq_true, Notice.sameSubject_iff, ← same]
    rw [List.map_append, List.map_cons, List.nodup_middle, ← List.map_append, List.nodup_cons] at distinct
    exact fun eq => distinct.1 (eq ▸ List.mem_map_of_mem mem)
  have kept : ∀ l : List Notice, (∀ o ∈ l, o.sameSubject n = false) →
      l.map (fun o => if o.sameSubject n then o.merge n else o) = l := fun l other =>
    (List.map_congr_left fun o mem => by simp [other o mem]).trans (List.map_id l)
  rw [enqueueNotice, if_pos queued, List.map_append, List.map_cons,
    kept before fun o mem => others o (List.mem_append_left _ mem),
    kept after fun o mem => others o (List.mem_append_right _ mem),
    if_pos ((Notice.sameSubject_iff old n).mpr same)]

theorem enqueueNotice_appends {q : List Notice} {n : Notice}
    (fresh : ∀ o ∈ q, ¬ (o.kindCode = n.kindCode ∧ o.subject = n.subject)) : enqueueNotice q n = q ++ [n] := by
  refine if_neg fun queued => ?_
  obtain ⟨o, mem, same⟩ := List.any_eq_true.mp queued
  exact fresh o mem (Prod.mk.inj ((Notice.sameSubject_iff o n).mp same))

theorem State.post_masked {s : State} {n : Notice} (masked : s.link.mask.getLsbD (n.kindCode - 1) = true) :
    s.post n = s := if_pos masked

theorem State.post_unmasked {s : State} {n : Notice} (unmasked : s.link.mask.getLsbD (n.kindCode - 1) = false) :
    s.post n = { s with link := { s.link with notices := enqueueNotice s.link.notices n } } :=
  if_neg (by rw [Link.masked, unmasked]; exact Bool.false_ne_true)

end Sys2Proof.Machine

section
open Sys2Proof Sys2Proof.Machine

/-- Settles O8, by what an unmasked posting makes of the queue. -/
theorem postingsMergeOrAppend : Obligations.PostingsMergeOrAppend := by
  intro s n
  refine ⟨State.post_masked, fun unmasked => ⟨fun before old after distinct queue kind subject => ?merges, fun fresh => ?appends⟩⟩
  case merges =>
    have merged : s.post n = { s with link := { s.link with notices := before ++ old.merge n :: after } } := by
      rw [State.post_unmasked unmasked, queue, enqueueNotice_merges (queue ▸ distinct) (Prod.ext kind subject)]
    refine ⟨old.merge n, merged, Notice.merge_replaces, ?_, ?_⟩
    · rintro p x m k c p' x' m' k' c' rfl rfl
      rfl
    · rintro a f a' f' rfl rfl
      rfl
  case appends => rw [State.post_unmasked unmasked, enqueueNotice_appends fresh]

end
end

section
/-! SUPPORT. The SPI transactions: the status byte, what a frame that is clocked out sends, and the frames (R180 to R186). -/

namespace Sys2Proof.Machine

/-! ### The status byte (R180) -/

theorem byte_lt_eight_iff {x : Byte} : x.toNat < 8 ↔ ∀ k, 3 ≤ k → x.getLsbD k = false := by
  refine ⟨fun small k high => Nat.testBit_lt_two_pow (small.trans_le (show 2 ^ 3 ≤ 2 ^ k from ?_)), fun clear => ?_⟩
  · exact Nat.pow_le_pow_right Nat.two_pos high
  · exact Nat.lt_pow_two_of_testBit (n := 3) x.toNat fun k high => clear k high

theorem threeFlags_bits (a b c : Bool) :
    (BitVec.ofNat 8 (a.toNat + 2 * b.toNat + 4 * c.toNat)).getLsbD 0 = a ∧
    (BitVec.ofNat 8 (a.toNat + 2 * b.toNat + 4 * c.toNat)).getLsbD 1 = b ∧
    (BitVec.ofNat 8 (a.toNat + 2 * b.toNat + 4 * c.toNat)).getLsbD 2 = c ∧
    (BitVec.ofNat 8 (a.toNat + 2 * b.toNat + 4 * c.toNat)).toNat < 8 := by
  revert a b c; decide

theorem Link.attnLow_eq (l : Link) : l.attnLow = decide (l.notices ≠ []) := by
  unfold Link.attnLow
  cases l.notices <;> rfl

theorem Link.statusByte_bits (l : Link) :
    l.statusByte.getLsbD 0 = l.response.isSome ∧ l.statusByte.getLsbD 1 = decide (l.notices ≠ []) ∧
    l.statusByte.getLsbD 2 = l.buffer.isSome ∧ ∀ k, 3 ≤ k → l.statusByte.getLsbD k = false := by
  obtain ⟨ready, pending, busy, small⟩ := threeFlags_bits l.responseReady l.noticePending l.busy
  exact ⟨ready, pending.trans l.attnLow_eq, busy, byte_lt_eight_iff.mp small⟩

/-- R180: what the link shows now it can have shown at the fall. -/
theorem Link.mayHaveShown_statusByte (l : Link) : l.MayHaveShown l.statusByte := by
  obtain ⟨ready, pending, busy, reserved⟩ := l.statusByte_bits
  refine ⟨reserved, fun some => ?_, fun shown none => ?_, fun _ => ready, fun shown => .inl ?_⟩
  · rw [busy]; exact Option.isSome_iff_ne_none.mpr some
  · rw [busy, none] at shown; cases shown
  · rw [pending] at shown; exact of_decide_eq_true shown

/-- Log entry 19: the check of WRITE COMMAND takes exactly the status bytes that the link can have shown. -/
theorem Link.canHaveShown_iff {l : Link} {shown : Byte} : l.canHaveShown shown = true ↔ l.MayHaveShown shown := by
  have fields : l.MayHaveShown shown ↔ (∀ k, 3 ≤ k → shown.getLsbD k = false) ∧ (l.buffer ≠ none → shown.getLsbD 2 = true) ∧
      (shown.getLsbD 2 = true → l.buffer = none → l.response ≠ none) ∧
      (shown.getLsbD 2 = false ∨ l.buffer ≠ none → shown.getLsbD 0 = l.response.isSome) ∧
      (shown.getLsbD 1 = true → l.notices ≠ [] ∨ (shown.getLsbD 2 = true ∧ l.buffer = none ∧ l.cause = .command)) :=
    ⟨fun ⟨h1, h2, h3, h4, h5⟩ => ⟨h1, h2, h3, h4, h5⟩, fun ⟨h1, h2, h3, h4, h5⟩ => ⟨h1, h2, h3, h4, h5⟩⟩
  rw [fields, ← byte_lt_eight_iff]
  unfold Link.canHaveShown Link.busy Link.noticePending Link.responseReady
  generalize shown.getLsbD 0 = ready, shown.getLsbD 1 = pending, shown.getLsbD 2 = busy
  simp only [Bool.and_eq_true, decide_eq_true_eq, and_assoc]
  refine and_congr_right fun _ => ?_
  cases busy with
  | true => cases l.buffer <;> simp [imp_iff_not_or, or_assoc, ← Option.isSome_iff_ne_none]
  | false => cases l.buffer <;> simp [imp_iff_not_or]

/-! ### Clocking a frame out (R180) -/

theorem clockOut_length (frame : List Byte) (n : Nat) : (clockOut frame n).length = n := by
  rw [clockOut, List.length_append, List.length_take, List.length_replicate]
  omega

theorem clockOut_getElem? {frame : List Byte} {n j : Nat} (h : j < n) : (clockOut frame n)[j]? = some (frame.getD j 0) := by
  rw [clockOut, List.getD_eq_getElem?_getD]
  rcases Nat.lt_or_ge j frame.length with inside | beyond
  · rw [List.getElem?_append_left (by rw [List.length_take]; omega), List.getElem?_take_of_lt h,
      List.getElem?_eq_getElem inside, Option.getD_some]
  · rw [List.getElem?_append_right (by rw [List.length_take]; omega), List.getElem?_eq_none beyond,
      List.getElem?_replicate_of_lt (by rw [List.length_take]; omega), Option.getD_none]

theorem Link.shiftsOut_clockOut (l : Link) (frame : List Byte) (n : Nat) :
    l.ShiftsOut frame n (l.statusByte :: clockOut frame n) :=
  ⟨congrArg (· + 1) (clockOut_length frame n), rfl, fun _ => clockOut_getElem?⟩

/-! ### The frames (R184, R186) -/

/-- R184: a list that pairs status codes with their bytes gives each its byte. -/
theorem Status.code_of_listed {table : List (Status × Byte)} {x : Status} {c : Byte} (listed : (x, c) ∈ table)
    (codes : ∀ e ∈ table, e.1.code = e.2) : x.code = c := codes _ listed

theorem Response.frame_eq (r : Response) : r.frame = [r.tag, r.code, r.status.code, BitVec.ofNat 8 r.payload.length,
    BitVec.ofNat 8 (r.payload.length / 256)] ++ r.payload := by
  rw [Response.frame, putNat16_bytes]
  rfl

theorem Scheduler.code_eq (x : Scheduler) : x.code = if x = .surveying then 0 else if x = .driving then 1 else
    if x = .idle then 2 else if x = .paused then 3 else 4 := by cases x <;> rfl

theorem Supply.code_eq (x : Supply) : x.code = if x = .ok then 0 else 1 := by cases x <;> rfl

theorem ZoneState.code_eq (x : ZoneState) : x.code = if x = .clear then 0 else if x = .touched then 1 else 2 := by
  cases x <;> rfl

theorem ShownCause.code_eq (x : ShownCause) : x.code = if x = .nav then 0 else if x = .command then 1 else 2 := by
  cases x <;> rfl

theorem StreamError.code_eq (x : StreamError) :
    x.code = if x = .badEscape then 1 else if x = .badOperand then 2 else 3 := by cases x <;> rfl

theorem ResetKind.code_eq (x : ResetKind) : x.code = if x = .powerOn then 0 else if x = .pin then 1 else 2 := by
  cases x <;> rfl

theorem Notice.frame_miss (k : Key) : (Notice.miss k).frame =
    [1, 0, 3, k.doc.setWidth 8, k.page.setWidth 8, (k.page >>> 8).setWidth 8] := rfl

theorem Notice.frame_streamFault (i : Fin 2) (e : StreamError) (o : Nat) : (Notice.streamFault i e o).frame =
    [2, BitVec.ofNat 8 i.val, 5, if e = .badEscape then 1 else if e = .badOperand then 2 else 3,
      BitVec.ofNat 8 o, BitVec.ofNat 8 (o / 256), BitVec.ofNat 8 (o / 65536), BitVec.ofNat 8 (o / 16777216)] := by
  rw [← StreamError.code_eq]; rfl

theorem Notice.frame_shown (k : Key) (c : ShownCause) : (Notice.shown k c).frame =
    [4, 0, 4, k.doc.setWidth 8, k.page.setWidth 8, (k.page >>> 8).setWidth 8,
      if c = .nav then 0 else if c = .command then 1 else 2] := by
  rw [← ShownCause.code_eq]; rfl

theorem Notice.frame_touch (zones : Vector ZoneState 16) (b : Fin 8) : (Notice.touch zones b).frame =
    [6, 0, 17] ++ (List.finRange 16).map (fun z => if zones[z] = .clear then 0 else
      if zones[z] = .touched then 1 else 2) ++ [BitVec.ofNat 8 b.val] := by
  have codes : zones.toList.map ZoneState.code = (List.finRange 16).map fun z => if zones[z] = .clear then 0 else
      if zones[z] = .touched then 1 else 2 := by
    simp only [← ZoneState.code_eq]
    refine List.ext_getElem (by simp) fun j _ _ => by simp
  rw [← codes]
  simp [Notice.frame, Notice.payload, Notice.kindCode, Notice.subject, put8]

theorem Notice.frame_drive (x : Scheduler) (y : Supply) : (Notice.drive x y).frame =
    [8, 0, 2, if x = .surveying then 0 else if x = .driving then 1 else if x = .idle then 2 else
      if x = .paused then 3 else 4, if y = .ok then 0 else 1] := by
  rw [← Scheduler.code_eq, ← Supply.code_eq]; rfl

theorem Notice.frame_settle (d k : Nat) : (Notice.settle d k).frame =
    [9, 0, 4, BitVec.ofNat 8 d, BitVec.ofNat 8 (d / 256), BitVec.ofNat 8 k, BitVec.ofNat 8 (k / 256)] := by
  simp only [Notice.frame, Notice.payload, putNat16_bytes]
  rfl

theorem Link.noticeFrame_head {l : Link} {m : Notice} (head : m ∈ l.notices.head?) : l.noticeFrame = m.frame := by
  obtain ⟨rest, queue⟩ := List.head?_eq_some_iff.mp head
  rw [Link.noticeFrame, queue]

theorem Link.noticeFrame_none {l : Link} (none : l.notices = []) : l.noticeFrame = [0, 0, 0] := by
  rw [Link.noticeFrame, none]; rfl

theorem Link.responseFrame_held {l : Link} {r : Response} (held : r ∈ l.response) : l.responseFrame = r.frame := by
  rw [Link.responseFrame, Option.mem_def.mp held]

theorem Link.responseFrame_none {l : Link} (none : l.response = none) : l.responseFrame = [0, 0, 0x12, 0, 0] := by
  rw [Link.responseFrame, none]; rfl

/-! ### The rows (R180, R181, R183, R186) -/

section
variable {s : State} {shown : Byte} {bytes : List Byte}

theorem exec_writeCommand_notShown (awake : s.resetPin = false) (cannot : ¬ s.link.MayHaveShown shown) :
    exec (.writeCommand shown bytes) s = .next s := by
  have refused : s.link.canHaveShown shown = false := Bool.eq_false_iff.mpr fun can => cannot (Link.canHaveShown_iff.mp can)
  rw [exec, execWriteCommand, if_neg (ne_true_of_eq_false awake), refused]
  rfl

theorem exec_writeCommand_shown (awake : s.resetPin = false) (may : s.link.MayHaveShown shown) :
    exec (.writeCommand shown bytes) s = .next { s with link := { s.link with
      buffer := if shown.getLsbD 2 = true then s.link.buffer else (readFrame bytes).or s.link.buffer
      shiftedOut := shown :: List.replicate bytes.length 0 } } := by
  rw [exec, execWriteCommand, if_neg (ne_true_of_eq_false awake), Link.canHaveShown_iff.mpr may]
  cases shown.getLsbD 2 with
  | true => rfl
  | false => cases readFrame bytes <;> rfl

theorem readFrame_short (short : bytes.length < 4) : readFrame bytes = none := by
  unfold readFrame
  split
  · simp only [List.length_cons] at short; omega
  · rfl

theorem exec_readResponse {n : Nat} (awake : s.resetPin = false) (clocked : 1 ≤ n) :
    exec (.readResponse n) s = .next { s with link := { s.link with
      response := none, shiftedOut := s.link.statusByte :: clockOut s.link.responseFrame n } } := by
  rw [exec, execReadResponse, if_neg (ne_true_of_eq_false awake), if_neg (by omega)]
  rfl

theorem exec_readNotice {n : Nat} (awake : s.resetPin = false) (clocked : 1 ≤ n) :
    exec (.readNotice n) s = .next { s with link := { s.link with
      notices := s.link.notices.drop 1, shiftedOut := s.link.statusByte :: clockOut s.link.noticeFrame n } } := by
  rw [exec, execReadNotice, if_neg (ne_true_of_eq_false awake), if_neg (by omega), List.drop_one]
  rfl

theorem exec_statusOnly (awake : s.resetPin = false) (code : Byte) (n : Nat) :
    exec (.statusOnlyTransaction code n) s = .next { s with link := { s.link with
      shiftedOut := s.link.statusByte :: clockOut [] n } } := by
  rw [exec, execStatusOnlyTransaction, if_neg (ne_true_of_eq_false awake), clockOut, List.take_nil]
  rfl

theorem exec_noByteClocked (awake : s.resetPin = false) {c : Instr}
    (row : c = .readResponse 0 ∨ c = .readNotice 0 ∨ ∃ code, c = .statusOnlyTransaction code 0) :
    exec c s = .next { s with link := { s.link with shiftedOut := [s.link.statusByte] } } := by
  rcases row with rfl | rfl | ⟨code, rfl⟩
  · rw [exec, execReadResponse, if_neg (ne_true_of_eq_false awake)]; rfl
  · rw [exec, execReadNotice, if_neg (ne_true_of_eq_false awake)]; rfl
  · exact exec_statusOnly awake code 0

end

end Sys2Proof.Machine

section
open Sys2Proof Sys2Proof.Machine

/-- Settles O7: each row in closed form, and each frame by its layout. -/
theorem transactionsCarryTheirFrames : Obligations.TransactionsCarryTheirFrames := by
  refine ⟨fun l => ?bits, fun s shown awake => ⟨fun bytes => exec_writeCommand_notShown awake, fun may => ?write⟩,
    fun s n awake => ⟨fun c => exec_noByteClocked awake, fun clocked => ?response, fun clocked => ?notice, fun code => ?status⟩⟩
  case bits =>
    obtain ⟨ready, pending, busy, reserved⟩ := l.statusByte_bits
    exact ⟨ready, pending, busy, reserved, l.attnLow_eq, l.mayHaveShown_statusByte⟩
  case write =>
    refine ⟨fun code tag l0 l1 payload free => ?_, fun bytes ignored => ?_⟩
    · rw [exec_writeCommand_shown awake may, free]
      rfl
    · rw [exec_writeCommand_shown awake may]
      rcases ignored with busy | short
      · rw [if_pos busy]
      · rw [readFrame_short short, Option.none_or, ite_self]
  case response =>
    refine ⟨_, exec_readResponse awake clocked, fun r held c listed => ?_, fun none => ?_⟩
    · rw [Link.responseFrame_held held, r.frame_eq, Status.code_of_listed listed (by decide)]
      exact s.link.shiftsOut_clockOut _ n
    · rw [Link.responseFrame_none none]
      exact s.link.shiftsOut_clockOut _ n
  case notice =>
    have sent := s.link.shiftsOut_clockOut s.link.noticeFrame n
    refine ⟨_, exec_readNotice awake clocked, fun m head => ?_, fun none => Link.noticeFrame_none none ▸ sent⟩
    have framed : ∀ {frame : List Byte}, m.frame = frame → s.link.ShiftsOut frame n
        (s.link.statusByte :: clockOut s.link.noticeFrame n) := by
      rintro _ rfl
      rw [Link.noticeFrame_head head]
      exact s.link.shiftsOut_clockOut _ n
    exact ⟨fun k e => framed (e ▸ Notice.frame_miss k), fun i x o e => framed (e ▸ Notice.frame_streamFault i x o),
      fun a b c d x e => framed (e ▸ rfl), fun k c e => framed (e ▸ Notice.frame_shown k c),
      fun a b c d x e => framed (e ▸ rfl), fun zones b e => framed (e ▸ Notice.frame_touch zones b),
      fun a x e => framed (e ▸ rfl), fun x y e => framed (e ▸ Notice.frame_drive x y),
      fun d k e => framed (e ▸ Notice.frame_settle d k)⟩
  case status => exact ⟨_, exec_statusOnly awake code n, s.link.shiftsOut_clockOut [] n⟩

end
end

section
/-! SUPPORT. READ STATUS, group by group (R188). -/

namespace Sys2Proof.Machine

section
variable (s : State)

theorem putSlot_used {i : Fin 2} {r : LoadSlot} (used : r ∈ s.load.slots[i]) :
    putSlot s i = [if r.complete then 2 else 1] ++ putKey r.key ++ [put8 r.entry.val] ++ putNat32 r.offset := by
  simp only [putSlot, Option.mem_def.mp used]
  rfl

/-- Log entry 7: the page bytes and the stream offset of an IDLE slot are free. -/
theorem putSlot_idle {i : Fin 2} (idle : s.load.slots[i] = none) :
    (putSlot s i).length = 9 ∧ (putSlot s i).take 2 = [0, 0xFF] ∧ (putSlot s i).getD 4 0 = 0xFF := by
  simp only [putSlot, idle]
  exact ⟨rfl, rfl, rfl⟩

theorem putSlot_length (i : Fin 2) : (putSlot s i).length = 9 := by
  cases slot : s.load.slots[i] with
  | none => exact (putSlot_idle s slot).1
  | some r => rw [putSlot_used s slot]; rfl

theorem putSweep_running {r : SweepRun} (running : r ∈ s.sweep) : putSweep s =
    [1, put8 r.progress.val, put8 r.matched, put8 r.changed, put8 r.skippedShown, put8 r.collisions] := by
  simp only [putSweep, Option.mem_def.mp running]

theorem putSweep_idle (idle : s.sweep = none) : ∃ x, putSweep s = [0, x, 0, 0, 0, 0] := by
  simp only [putSweep, idle]
  exact ⟨_, rfl⟩

theorem putSweep_length : (putSweep s).length = 6 := by
  unfold putSweep
  split <;> rfl

theorem putNavigation_length : (putNavigation s).length = 9 := by
  simp only [putNavigation, put16, List.length_append, List.length_cons, List.length_nil, putKeyOr_length]

theorem putStatus_length : (putStatus s).length = 61 := by
  simp only [putStatus, putNat16_bytes, List.length_append, List.length_map, List.length_finRange, List.length_cons,
    List.length_nil, putNavigation_length, putKeyOr_length, putSlot_length, putSweep_length]

theorem putKeyOr_present {response place : Nat} {key : Option Key} {k : Key} (present : k ∈ key) :
    putKeyOr response place key = putKey k := by
  rw [Option.mem_def.mp present]; rfl

/-- Log entry 7: the page bytes of an absent key are free. -/
theorem putKeyOr_absent {response place : Nat} {key : Option Key} (absent : key = none) :
    (putKeyOr response place key).length = 3 ∧ (putKeyOr response place key).head? = some 0xFF := by
  rw [absent]; exact ⟨rfl, rfl⟩

end

end Sys2Proof.Machine

section
open Sys2Proof Sys2Proof.Machine

/-- Settles O25: the payload is written out group by group, each group by what it reports. -/
theorem readStatusReportsTheGroups : Obligations.ReadStatusReportsTheGroups := by
  rintro s b tag rfl accepts
  refine ⟨putStatus s, putKeyOr s.link.served placeShownKey s.nav.shownKey,
    putKeyOr s.link.served placeMissKey s.nav.missKey, putSlot s 0, putSlot s 1, putSweep s,
    State.take_frameOf (r := ⟨.ok, _⟩) (owner := readStatusRule) accepts rfl rfl, putStatus_length s, ?groups,
    fun _ => putKeyOr_present, fun _ => putKeyOr_present, putKeyOr_absent, putKeyOr_absent,
    fun _ => putSlot_used s, fun _ => putSlot_used s, putSlot_idle s, putSlot_idle s,
    fun _ => putSweep_running s, putSweep_idle s⟩
  case groups =>
    simp only [← Scheduler.code_eq, ← Supply.code_eq, ← NavCondition.code_eq, ← ZoneState.code_eq, ← ResetKind.code_eq,
      putStatus, putNavigation, List.append_assoc, List.cons_append, List.nil_append]
    rfl

/-- Settles O1. -/
theorem stepTakesTheFrontRow : Obligations.StepTakesTheFrontRow := ⟨fun _ _ _ => rfl, fun _ => rfl⟩

end
end

section
/-! SUPPORT. The command rows, each with its code and the rule of the block that owns it, and the table of codes and lengths
(R182, R185, R189). -/

namespace Sys2Proof.Machine

/-- The code, the frame and the owner's rule of a row in which a command of the catalogue is taken or refused (R185). -/
def commandOwner : Instr → Option (Byte × CommandBody × (List Byte → State → State × Reply))
  | .openLoad b => some (0x10, b, openLoadRule)
  | .data b => some (0x11, b, dataRule)
  | .commit b => some (0x12, b, commitRule)
  | .cancelLoad b => some (0x13, b, cancelLoadRule)
  | .setControlCodes b => some (0x14, b, setControlCodesRule)
  | .queryEntry b => some (0x20, b, queryEntryRule)
  | .listEntries b => some (0x21, b, listEntriesRule)
  | .patchCells b => some (0x22, b, patchCellsRule)
  | .retire b => some (0x23, b, retireRule)
  | .setEntry b => some (0x24, b, setEntryRule)
  | .addMark b => some (0x28, b, addMarkRule)
  | .dropMarks b => some (0x29, b, dropMarksRule)
  | .sweep b => some (0x30, b, sweepRule)
  | .abortSweep b => some (0x31, b, abortSweepRule)
  | .showKey b => some (0x38, b, showRule)
  | .declineMiss b => some (0x39, b, declineMissRule)
  | .setNavigation b => some (0x3A, b, setNavigationRule)
  | .setStatus b => some (0x40, b, setStatusRule)
  | .setGlyphs b => some (0x41, b, setGlyphsRule)
  | .setCalendar b => some (0x48, b, setCalendarRule)
  | .setDrive b => some (0x50, b, setDriveRule)
  | .pauseDrive b => some (0x51, b, pauseDriveRule)
  | .resumeDrive b => some (0x52, b, resumeDriveRule)
  | .survey b => some (0x53, b, surveyRule)
  | .readFaults b => some (0x58, b, readFaultsRule)
  | .clearFaults b => some (0x59, b, clearFaultsRule)
  | .readRow b => some (0x5A, b, readRowRule)
  | .setTouch b => some (0x60, b, setTouchRule)
  | .setNoticeMask b => some (0x70, b, setNoticeMaskRule)
  | .readStatus b => some (0x71, b, readStatusRule)
  | .resetCommand b => some (0x7F, b, resetRule)
  | _ => none

theorem exec_owned {c : Instr} {code : Byte} {b : CommandBody} {rule : List Byte → State → State × Reply}
    (owned : commandOwner c = some (code, b, rule)) (s : State) : exec c s = s.take code b rule := by
  cases c <;> cases owned <;> rfl

theorem commandOwner_of_commandRow {code : Byte} {b : CommandBody} {row : Instr} (h : commandRow code b = some row) :
    ∃ rule, commandOwner row = some (code, b, rule) := by
  unfold commandRow at h
  iterate 31
    rcases ite_some_cases h with ⟨rfl, rfl⟩ | h
    · exact ⟨_, rfl⟩
  cases h

/-! ### While the RESET pin is asserted (R189) -/

theorem State.takes_held {s : State} (held : s.resetPin = true) (code : Byte) (b : CommandBody) :
    s.takes code b = false := by rw [State.takes, held]; rfl

/-- R189: no row but a transaction or an edge of a pin or of the power is taken. -/
theorem exec_held {s : State} (held : s.resetPin = true) {c : Instr} (notTransaction : c.isTransaction = false)
    (notEdge : c.isPinEdge = false) : exec c s = .next s := by
  rcases owned : commandOwner c with _ | ⟨code, b, rule⟩
  case some => rw [exec_owned owned, State.take_turnedAway rule (State.takes_held held code b)]
  cases c with
  | writeCommand shown bytes | readResponse n | readNotice n | statusOnlyTransaction code n => cases notTransaction
  | powerOnReset | pinReset | resetPinAsserted | supplyFall | supplyRise => cases notEdge
  | unknownCommand code b => exact if_neg (by simp [State.takes_held held])
  | keySample prev next mark seek call => exact if_pos held
  | timeout slot => exact if_pos held
  | sweepVisit => exact if_pos held
  | blinkTimerExpiry => exact if_pos (by rw [held, Bool.true_or])
  | zoneReading zone count => exact if_pos held
  | holdTimerExpiry zone => exact if_pos (by rw [held, Bool.true_or, Bool.true_or])
  | refillUnitArrival => exact if_pos (by rw [held, Bool.true_or])
  | strokeStart => exact if_pos held
  | strokeCompletion sensed => exact if_pos held
  | _ => cases owned

/-! ### The codes and the lengths of the catalogue (R182, R185) -/

/-- R185: the table names the codes of the catalogue, COMMIT twice for its two lengths. -/
theorem mem_catalogueCodes {code : Byte} : code ∈ catalogueCodes ↔ ∃ l ∈ payloadLengths, l.1 = code := by
  rw [← List.mem_map (f := Prod.fst)]
  simp only [catalogueCodes, payloadLengths, List.map_cons, List.map_nil, List.mem_cons, or_self_left]

/-- R185: the ranges of one code. -/
theorem lengthListed_iff {code : Byte} {n : Nat} : LengthListed code n ↔
    ∃ l ∈ payloadLengths.filter (fun l => decide (l.1 = code)), l.2.1 ≤ n ∧ n ≤ l.2.2 := by
  simp only [List.mem_filter, decide_eq_true_eq, and_assoc]

theorem lengthAllowed_known {n : Nat} : ∀ code ∈ catalogueCodes, (lengthAllowed code n = true ↔ LengthListed code n) := by
  simp only [lengthListed_iff, catalogueCodes, payloadLengths, List.forall_mem_cons, lengthAllowed, List.filter_cons,
    List.filter_nil, BitVec.reduceEq, decide_true, decide_false, if_true, if_false, Bool.false_eq_true]
  simp only [List.mem_cons, List.not_mem_nil, BitVec.reduceEq, or_false, false_or, if_true, exists_eq_or_imp,
    exists_eq_left, Bool.and_eq_true, Bool.or_eq_true, decide_eq_true_eq, beq_iff_eq, false_imp_iff, implies_true,
    and_true, true_and]
  and_intros <;> omega

theorem lengthAllowed_unknown {code : Byte} (unknown : code ∉ catalogueCodes) (n : Nat) : lengthAllowed code n = false := by
  simp only [catalogueCodes, List.mem_cons, List.not_mem_nil, or_false, not_or, BitVec.ofNat_eq_ofNat] at unknown
  simp [lengthAllowed, unknown]

theorem lengthAllowed_iff {code : Byte} {n : Nat} : lengthAllowed code n = true ↔ LengthListed code n := by
  by_cases known : code ∈ catalogueCodes
  · exact lengthAllowed_known code known
  · rw [lengthAllowed_unknown known]
    exact iff_of_false Bool.false_ne_true fun ⟨l, mem, is, _⟩ => known (mem_catalogueCodes.mpr ⟨l, mem, is⟩)

theorem lengthGood_eq_false {code : Byte} {b : CommandBody} (wrong : 300 < b.declared.toNat ∨
    b.declared.toNat ≠ b.payload.length ∨ ¬ LengthListed code b.payload.length) : lengthGood code b = false := by
  rw [← lengthAllowed_iff] at wrong
  refine Bool.eq_false_iff.mpr fun good => ?_
  simp only [lengthGood, Bool.and_eq_true, decide_eq_true_eq, beq_iff_eq] at good
  obtain ⟨⟨short, declared⟩, allowed⟩ := good
  rcases wrong with long | other | unlisted
  · exact absurd long (Nat.not_lt_of_le short)
  · exact other declared
  · exact unlisted allowed

theorem exec_unknownCommand {s : State} {code : Byte} {b : CommandBody} (accepts : s.Accepts code b)
    (unknown : code ∉ catalogueCodes) :
    exec (.unknownCommand code b) s = .next (s.answer code b.tag .unknownCommand []) :=
  if_pos (by simp [accepts.takes, unknown])

end Sys2Proof.Machine

section
open Sys2Proof Sys2Proof.Machine

/-- Settles O4, by the table of codes and lengths and the checks of R182. -/
theorem wrongFramesReachNoBlock : Obligations.WrongFramesReachNoBlock := by
  refine ⟨fun code => mem_catalogueCodes, fun code n => lengthAllowed_iff, fun s code b accepts =>
    ⟨exec_unknownCommand accepts, fun row known wrong => ?_⟩⟩
  obtain ⟨rule, owned⟩ := commandOwner_of_commandRow known
  rw [exec_owned owned, State.take_badLength rule accepts (lengthGood_eq_false wrong)]

/-- Settles O6: every row but an edge looks at the pin first. -/
theorem assertedResetPinHoldsThePart : Obligations.AssertedResetPinHoldsThePart := by
  intro s held
  refine ⟨fun c => exec_held held, fun shown bytes => if_pos held, fun n c row => ?_⟩
  rcases row with rfl | rfl | ⟨code, rfl⟩
  · exact if_pos held
  · exact if_pos held
  · exact if_pos held

end
end

section
/-! SUPPORT. No answer carries more than 300 bytes (R183, R184). -/

namespace Sys2Proof.Machine

/-- R184: the answer of a rule carries at most 300 bytes. -/
def Reply.Short (a : State × Reply) : Prop := a.2.payload.length ≤ 300

section
variable {s : State}

theorem Reply.Short.bare (status : Status) : Reply.Short (s, .bare status) := Nat.zero_le _

theorem Reply.Short.empty (status : Status) : Reply.Short (s, ⟨status, []⟩) := Nat.zero_le _

theorem Reply.Short.of_length {r : Reply} (n : Nat) (length : r.payload.length = n) (short : n ≤ 300) :
    Reply.Short (s, r) := length.trans_le short

/-- R13: a refusal by the check of an entry carries a revision at most. -/
theorem State.checkEntry_short {k : Key} {kindSuits : Kind → Bool} {stateSuits : EntryState → Bool} {cond : Condition}
    {r : Reply} (refused : s.checkEntry k kindSuits stateSuits cond = .error r) : Reply.Short (s, r) := by
  unfold State.checkEntry at refused
  split at refused
  · cases refused; exact .bare _
  · simp only at refused
    split_ifs at refused
    · cases refused; exact .bare _
    all_goals cases refused; exact .of_length 2 rfl (by decide)

/-- R41: so does a refusal of a commit. -/
theorem commitRefusal_short {cond : CommitCondition} {v : Option Entry} {r : Reply} (refused : commitRefusal cond v = some r) :
    Reply.Short (s, r) := by
  have revision : ∀ (status : Status) (w : BitVec 16), Reply.Short (s, .withRevision status w) :=
    fun _ _ => .of_length 2 rfl (by decide)
  unfold commitRefusal at refused
  split at refused
  · cases refused; exact revision _ _
  · cases refused; exact .bare _
  · cases refused
  · split at refused <;> cases refused; exact revision _ _
  · split_ifs at refused <;> cases refused
    · exact revision _ _
    · exact revision _ _

end

section
variable (p : List Byte) (s : State)

/-! ### Loads -/

theorem openLoadRule_short : Reply.Short (openLoadRule p s) := by
  unfold openLoadRule
  split
  · exact .bare _
  · split
    · exact .bare _
    · split
      · exact .bare _
      · split
        · exact .bare _
        · exact .of_length 5 (by simp [putKeyOr_length]) (by decide)

theorem dataReply_length (w : StreamWork) (consumed discarded : Nat) : (dataReply w consumed discarded).payload.length = 9 := by
  unfold dataReply putPosition
  cases w.slot.kind <;> rfl

theorem dataRule_short : Reply.Short (dataRule p s) := by
  unfold dataRule
  split
  · exact .bare _
  · split
    · exact .bare _
    · split
      · exact .bare _
      · split
        · exact .bare _
        · split
          · exact .bare _
          · split
            · exact .of_length 9 (dataReply_length _ _ _) (by decide)
            · exact .of_length 5 rfl (by decide)

theorem State.takeCommit_short (i : Fin 2) (r : LoadSlot) : Reply.Short (s.takeCommit i r) := by
  unfold State.takeCommit
  simp only
  split
  · exact .of_length 8 rfl (by decide)
  · exact .of_length 8 rfl (by decide)

theorem commitRule_short : Reply.Short (commitRule p s) := by
  unfold commitRule
  split
  · exact .bare _
  · split
    · exact .bare _
    · simp only
      split
      · rename_i refused; exact commitRefusal_short refused
      · exact State.takeCommit_short _ _ _

theorem cancelLoadRule_short : Reply.Short (cancelLoadRule p s) := by
  unfold cancelLoadRule
  split
  · split
    · exact .bare _
    · split
      · exact .bare _
      · exact .of_length 5 rfl (by decide)
  · exact .bare _

theorem setControlCodesRule_short : Reply.Short (setControlCodesRule p s) := by
  unfold setControlCodesRule
  split
  · exact .bare _
  · simp only
    split_ifs
    · exact .bare _
    · exact .bare _
    · exact .empty _

/-! ### Entries and marks -/

/-- R16, R50: a summary of an entry whose marks are sound has at most 53 bytes. -/
theorem queryEntryRule_short (marks : s.MarksSound) : Reply.Short (queryEntryRule p s) := by
  have summary : ∀ i, Reply.Short (s, ⟨.ok, putSummary s i⟩) := fun i => by
    obtain ⟨few, -⟩ := marks.1 i
    exact .of_length _ (putSummary_length s i) (by omega)
  unfold queryEntryRule
  split
  · split
    · exact .bare _
    · split
      · exact summary _
      · exact summary _
      · exact .of_length 2 rfl (by decide)
      · exact .of_length 2 rfl (by decide)
  · exact .bare _

theorem listEntriesRule_short : Reply.Short (listEntriesRule p s) := by
  unfold listEntriesRule
  split
  · split
    · exact Nat.succ_le_succ (fitSummaries_length _ _)
    · exact .bare _
  · exact .bare _

theorem patchCellsRule_short : Reply.Short (patchCellsRule p s) := by
  unfold patchCellsRule
  split
  · split
    · split
      · split
        · rename_i refused; exact State.checkEntry_short refused
        · exact .of_length 2 rfl (by decide)
      · exact .bare _
    · exact .bare _
  · exact .bare _

theorem retireRule_short : Reply.Short (retireRule p s) := by
  unfold retireRule
  split
  · split
    · split
      · rename_i refused; exact State.checkEntry_short refused
      · exact .of_length 3 rfl (by decide)
    · exact .bare _
  · exact .bare _

theorem setEntryRule_short : Reply.Short (setEntryRule p s) := by
  unfold setEntryRule
  split
  · split
    · split
      · rename_i refused; exact State.checkEntry_short refused
      · exact .of_length 2 rfl (by decide)
    · exact .bare _
  · exact .bare _

theorem addMarkRule_short : Reply.Short (addMarkRule p s) := by
  unfold addMarkRule
  split
  · split
    · split
      · rename_i refused; exact State.checkEntry_short refused
      · simp only
        split_ifs
        · exact .of_length 4 rfl (by decide)
        · exact .of_length 4 rfl (by decide)
        · exact .of_length 2 rfl (by decide)
    · exact .bare _
  · exact .bare _

theorem dropMarksRule_short : Reply.Short (dropMarksRule p s) := by
  unfold dropMarksRule
  split
  · split
    · split
      · rename_i refused; exact State.checkEntry_short refused
      · simp only
        split_ifs
        · exact .of_length 4 rfl (by decide)
        · exact .of_length 4 rfl (by decide)
    · exact .bare _
  · exact .bare _

/-! ### Sweeps and navigation -/

theorem sweepRule_short : Reply.Short (sweepRule p s) := by
  unfold sweepRule
  split
  · exact .bare _
  · split
    · exact .bare _
    · exact .of_length 1 rfl (by decide)

theorem abortSweepRule_short : Reply.Short (abortSweepRule p s) := by
  unfold abortSweepRule
  split
  · exact .of_length 1 rfl (by decide)
  · exact .of_length 1 rfl (by decide)

theorem showRule_short : Reply.Short (showRule p s) := by
  unfold showRule
  split
  · split
    · exact .bare _
    · split
      · exact .bare _
      · exact .of_length 4 (congrArg (· + 1) (putKeyOr_length _ _ _)) (by decide)
  · exact .bare _

theorem declineMissRule_short : Reply.Short (declineMissRule p s) :=
  .of_length 9 (putNavigation_length _) (by decide)

theorem setNavigationRule_short : Reply.Short (setNavigationRule p s) := by
  unfold setNavigationRule
  split
  · split
    · exact .bare _
    · exact .of_length 9 (putNavigation_length _) (by decide)
  · exact .bare _

/-! ### Settings, the drive and the link -/

theorem setStatusRule_short : Reply.Short (setStatusRule p s) := by
  unfold setStatusRule
  split
  · split
    · exact .bare _
    · split
      · exact .empty _
      · exact .bare _
  · exact .bare _

theorem setGlyphsRule_short : Reply.Short (setGlyphsRule p s) := .empty _

theorem setCalendarRule_short : Reply.Short (setCalendarRule p s) := by
  unfold setCalendarRule
  split
  · exact .bare _
  · simp only
    split
    · exact .empty _
    · exact .bare _

theorem setDriveRule_short : Reply.Short (setDriveRule p s) := by
  unfold setDriveRule
  split
  · split
    · exact .empty _
    · exact .bare _
  · exact .bare _

theorem pauseDriveRule_short : Reply.Short (pauseDriveRule p s) := .empty _

theorem resumeDriveRule_short : Reply.Short (resumeDriveRule p s) := .empty _

theorem surveyRule_short : Reply.Short (surveyRule p s) := .empty _

theorem setTouchRule_short : Reply.Short (setTouchRule p s) := by
  unfold setTouchRule
  split
  · split
    · exact .empty _
    · exact .bare _
  · exact .bare _

theorem setNoticeMaskRule_short : Reply.Short (setNoticeMaskRule p s) := by
  unfold setNoticeMaskRule
  split
  · split
    · exact .empty _
    · exact .bare _
  · exact .bare _

theorem resetRule_short : Reply.Short (resetRule p s) := .empty _

/-! ### Pin reports -/

/-- R123: 64 records of three bytes fit. -/
theorem readFaultsRule_short (pins : s.PinsSound) : Reply.Short (readFaultsRule p s) := by
  obtain ⟨-, few, -⟩ := pins
  have length : (s.pins.faults.flatMap putFault).length = s.pins.faults.length * 3 := by
    simp [List.length_flatMap, putFault]
  exact .of_length (s.pins.faults.length * 3 + 1) (congrArg (· + 1) length) (by omega)

theorem clearFaultsRule_short : Reply.Short (clearFaultsRule p s) := by
  unfold clearFaultsRule
  split
  · split
    · exact .bare _
    · exact .of_length 2 rfl (by decide)
  · exact .bare _

theorem readRowRule_short : Reply.Short (readRowRule p s) := by
  unfold readRowRule
  split
  · split
    · exact .bare _
    · exact .of_length 41 (by simp [putRow]) (by decide)
  · exact .bare _

theorem readStatusRule_short : Reply.Short (readStatusRule p s) := .of_length 61 (putStatus_length s) (by decide)

/-- R17, R50, R123, R184: the answers of every command. -/
theorem commandOwner_short {c : Instr} {code : Byte} {b : CommandBody} {rule : List Byte → State → State × Reply}
    (owned : commandOwner c = some (code, b, rule)) (marks : s.MarksSound) (pins : s.PinsSound) :
    Reply.Short (rule p s) := by
  cases c with
  | openLoad b => cases owned; exact openLoadRule_short p s
  | data b => cases owned; exact dataRule_short p s
  | commit b => cases owned; exact commitRule_short p s
  | cancelLoad b => cases owned; exact cancelLoadRule_short p s
  | setControlCodes b => cases owned; exact setControlCodesRule_short p s
  | queryEntry b => cases owned; exact queryEntryRule_short p s marks
  | listEntries b => cases owned; exact listEntriesRule_short p s
  | patchCells b => cases owned; exact patchCellsRule_short p s
  | retire b => cases owned; exact retireRule_short p s
  | setEntry b => cases owned; exact setEntryRule_short p s
  | addMark b => cases owned; exact addMarkRule_short p s
  | dropMarks b => cases owned; exact dropMarksRule_short p s
  | sweep b => cases owned; exact sweepRule_short p s
  | abortSweep b => cases owned; exact abortSweepRule_short p s
  | showKey b => cases owned; exact showRule_short p s
  | declineMiss b => cases owned; exact declineMissRule_short p s
  | setNavigation b => cases owned; exact setNavigationRule_short p s
  | setStatus b => cases owned; exact setStatusRule_short p s
  | setGlyphs b => cases owned; exact setGlyphsRule_short p s
  | setCalendar b => cases owned; exact setCalendarRule_short p s
  | setDrive b => cases owned; exact setDriveRule_short p s
  | pauseDrive b => cases owned; exact pauseDriveRule_short p s
  | resumeDrive b => cases owned; exact resumeDriveRule_short p s
  | survey b => cases owned; exact surveyRule_short p s
  | readFaults b => cases owned; exact readFaultsRule_short p s pins
  | clearFaults b => cases owned; exact clearFaultsRule_short p s
  | readRow b => cases owned; exact readRowRule_short p s
  | setTouch b => cases owned; exact setTouchRule_short p s
  | setNoticeMask b => cases owned; exact setNoticeMaskRule_short p s
  | readStatus b => cases owned; exact readStatusRule_short p s
  | resetCommand b => cases owned; exact resetRule_short p s
  | _ => cases owned

end

end Sys2Proof.Machine

section
open Sys2Proof Sys2Proof.Machine

/-- Settles O3: a taken command answers by its owner's rule, and every refusal of the link is bare. -/
theorem everyCommandIsAnswered : Obligations.EveryCommandIsAnswered := by
  rintro s code b row (known | ⟨unknown, rfl⟩) accepts
  · obtain ⟨rule, owned⟩ := commandOwner_of_commandRow known
    rw [exec_owned owned]
    cases good : lengthGood code b with
    | true => exact ⟨_, _, _, State.take_good rule accepts good, rfl, rfl, commandOwner_short b.payload s owned⟩
    | false => exact ⟨_, _, _, State.take_badLength rule accepts good, rfl, rfl, fun _ _ => Nat.zero_le _⟩
  · exact ⟨_, _, _, exec_unknownCommand accepts unknown, rfl, rfl, fun _ _ => Nat.zero_le _⟩

end
end

section
/-! SUPPORT. The queue of rows that wait is the business of no block: what the blocks' shared operations do leaves it as it is. -/

namespace Sys2Proof.Machine
namespace State

variable (s : State)

/-! ### The pin path (R109, R137 to R165) -/

theorem pending_offDrive : OffDrive State.pending := ⟨fun _ _ => rfl, fun _ _ => rfl, fun _ _ => rfl, post_pending⟩

@[simp] theorem startIfCharged_pending : s.startIfCharged.pending = s.pending := pending_offDrive.startIfCharged s
@[simp] theorem requestSurvey_pending : s.requestSurvey.pending = s.pending := pending_offDrive.requestSurvey s
@[simp] theorem wake_pending : s.wake.pending = s.pending := pending_offDrive.wake s
@[simp] theorem strokeDone_pending : s.strokeDone.pending = s.pending := pending_offDrive.strokeDone s

@[simp] theorem reform_pending (rows : Fin 128 → Bool) : (s.reform rows).pending = s.pending :=
  pending_offDrive.reform s rows

@[simp] theorem recompose_pending (lines : List (Fin 32)) : (s.recompose lines).pending = s.pending :=
  (PinPath.recompose s lines).pending

@[simp] theorem tellLines_pending (i : Fin 48) (lines : List (Fin 32)) : (s.tellLines i lines).pending = s.pending :=
  (PinPath.tellLines s i lines).pending

@[simp] theorem tellCondition_pending (before : NavCondition) : (s.tellCondition before).pending = s.pending :=
  (PinPath.tellCondition s before).pending

@[simp] theorem blinkChanged_pending : s.blinkChanged.pending = s.pending := (PinPath.blinkChanged s).pending

@[simp] theorem zoneChanged_pending (z : Fin 16) (bandChanged : Bool) :
    (s.zoneChanged z bandChanged).pending = s.pending := by
  obtain ⟨t, path, told⟩ := s.zoneChanged_eq z bandChanged
  rw [told, postTouch_pending, path.pending]

/-! ### Navigation (R66 to R77) -/

@[simp] theorem showEntry_pending (i : Fin 48) : (s.showEntry i).pending = s.pending := by
  simp [showEntry, apply_ite State.pending]

@[simp] theorem captureMiss_pending (k : Key) : (s.captureMiss k).pending = s.pending := by
  simp [captureMiss, apply_ite State.pending]

@[simp] theorem evaluate_pending (cause : ShownCause) : (s.evaluate cause).pending = s.pending := by
  unfold evaluate
  split
  · rfl
  · rw [tellCondition_pending]
    split <;> simp

@[simp] theorem wantPage_pending (page : BitVec 16) (cause : ShownCause) : (s.wantPage page cause).pending = s.pending :=
  evaluate_pending _ cause

@[simp] theorem loadEnded_pending (k : Key) : (s.loadEnded k).pending = s.pending := by
  simp [loadEnded, apply_ite State.pending]

@[simp] theorem keyReleased_pending (k : Key) : (s.keyReleased k).pending = s.pending := by
  simp [keyReleased, apply_ite State.pending]

@[simp] theorem keyCommitted_pending (k : Key) : (s.keyCommitted k).pending = s.pending := by
  simp [keyCommitted, apply_ite State.pending]

@[simp] theorem keyMoved_pending (before after : Key) (shown : Bool) :
    (s.keyMoved before after shown).pending = s.pending := by
  simp [keyMoved, apply_ite State.pending]

@[simp] theorem tellReleased_pending (keys : List Key) : (s.tellReleased keys).pending = s.pending := by
  induction keys generalizing s with
  | nil => rfl
  | cons k rest ih => rw [tellReleased, ih, keyReleased_pending]

@[simp] theorem declineMiss_pending : s.declineMiss.pending = s.pending := by
  simp [declineMiss, apply_ite State.pending]

/-! ### Presses of the patron keys (R56, R57, R63, R64, R69, R70) -/

@[simp] theorem pageStep_pending (next : BitVec 16 → BitVec 16) : (s.pageStep next).pending = s.pending := by
  unfold pageStep
  split
  · rfl
  · simp [apply_ite State.pending]

@[simp] theorem seek_pending : s.seek.pending = s.pending := by
  unfold seek
  split
  · rfl
  · split
    · rfl
    · split <;> simp

@[simp] theorem markPress_pending : s.markPress.pending = s.pending := by
  unfold markPress
  split
  · rfl
  · simp only
    split
    · rfl
    · split <;> simp

@[simp] theorem pressKey_pending (k : PatronKey) : (s.pressKey k).pending = s.pending := by
  cases k <;> simp [pressKey]

@[simp] theorem pressKeys_pending (keys : List PatronKey) : (s.pressKeys keys).pending = s.pending := by
  induction keys generalizing s with
  | nil => rfl
  | cons k rest ih => rw [pressKeys, ih, pressKey_pending]

@[simp] theorem sample_pending (down : Vector Bool 5) : (s.sample down).pending = s.pending := pressKeys_pending _ _

/-! ### Loads (R39, R42 to R46) -/

@[simp] theorem dropLoad_pending (i : Fin 2) (r : LoadSlot) : (s.dropLoad i r).pending = s.pending := rfl

@[simp] theorem fatalStream_pending (i : Fin 2) (r : LoadSlot) (e : StreamError) (offset : Nat) :
    (s.fatalStream i r e offset).pending = s.pending := by simp [fatalStream]

@[simp] theorem takeCommit_pending (i : Fin 2) (r : LoadSlot) : (s.takeCommit i r).1.pending = s.pending := by
  unfold takeCommit
  simp only
  split
  · simp
  · simp [apply_ite State.pending]

/-! ### The visits of a sweep (R87 to R93) -/

@[simp] theorem visitHeld_pending (r : SweepRun) (i : Fin 48) (k : Key) : (s.visitHeld r i k).1.pending = s.pending := by
  simp [visitHeld, apply_ite State.pending, apply_ite Prod.fst]

@[simp] theorem visitEntry_pending (r : SweepRun) (i : Fin 48) : (s.visitEntry r i).1.pending = s.pending := by
  unfold visitEntry
  split
  · split <;> simp
  · rfl

@[simp] theorem sweepAdvance_pending (r : SweepRun) : (s.sweepAdvance r).pending = s.pending := by
  unfold sweepAdvance
  split <;> simp

/-! ### The status line, the drive, the pin field and the zones (R105, R106, R118, R129, R146, R147, R162 to R164, R171) -/

@[simp] theorem setStatus_pending (on : Bool) (time : Nat) (text : Vector Byte 30) :
    (s.setStatus on time text).pending = s.pending := by
  have phased : (s.putPhase on time text).pending = s.pending := by
    unfold putPhase
    split
    · rfl
    · exact blinkChanged_pending _
  rw [setStatus_eq]
  split
  · rw [recompose_pending, phased]
  · exact phased

@[simp] theorem setGlyphs_pending (g : Glyphs) : (s.setGlyphs g).pending = s.pending := by
  simp [setGlyphs, apply_ite State.pending]

@[simp] theorem clearFaults_pending (sel : FaultSelector) : (s.clearFaults sel).pending = s.pending := by
  simp [clearFaults, apply_ite State.pending]

@[simp] theorem pauseDrive_pending : s.pauseDrive.pending = s.pending := by
  unfold pauseDrive
  cases s.cal.sched <;> simp [apply_ite State.pending]

@[simp] theorem resumeDrive_pending : s.resumeDrive.pending = s.pending := by
  unfold resumeDrive
  cases s.cal.sched with
  | paused => exact pending_offDrive.takeUp _ fun _ => rfl
  | idle => exact wake_pending _
  | surveying | driving | supplyLow => rfl

@[simp] theorem surveyAll_pending : s.surveyAll.pending = s.pending := by
  unfold surveyAll
  cases s.cal.sched with
  | driving =>
    simp only
    split <;> simp
  | idle => exact requestSurvey_pending _
  | surveying | paused | supplyLow => rfl

@[simp] theorem takeResult_pending (p : Plan) (sensed : PinRow) : (s.takeResult p sensed).pending = s.pending := by
  unfold takeResult
  split
  · rfl
  · simp only
    split <;> simp

@[simp] theorem discardStroke_pending : s.discardStroke.pending = s.pending := by
  unfold discardStroke
  split <;> rfl

@[simp] theorem supplyLost_pending : s.supplyLost.pending = s.pending := by simp [supplyLost]

@[simp] theorem supplyBack_pending : s.supplyBack.pending = s.pending := by
  unfold supplyBack
  simp only
  split
  · simp
  · exact pending_offDrive.takeUp _ postDrive_pending

@[simp] theorem zoneTakes_pending (z : Fin 16) (r : Zone × Bool) : (s.zoneTakes z r).pending = s.pending := by
  simp [zoneTakes, apply_ite State.pending]

end State
end Sys2Proof.Machine
end

section
/-! SUPPORT. What each command's rule does leaves the waiting rows as they are: a refusal leaves the whole state, and what is
left is what the rule does when it is taken. -/

namespace Sys2Proof.Machine

section
variable (p : List Byte) (s : State)

/-! ### Loads (R24 to R47) -/

theorem openLoadRule_pending : (openLoadRule p s).1.pending = s.pending := by
  unfold openLoadRule
  repeat' split
  all_goals rfl

theorem dataRule_pending : (dataRule p s).1.pending = s.pending := by
  unfold dataRule
  repeat' split
  any_goals rfl
  exact State.fatalStream_pending _ _ _ _ _

theorem commitRule_pending : (commitRule p s).1.pending = s.pending := by
  unfold commitRule
  dsimp only
  repeat' split
  any_goals rfl
  exact State.takeCommit_pending _ _ _

theorem cancelLoadRule_pending : (cancelLoadRule p s).1.pending = s.pending := by
  unfold cancelLoadRule
  repeat' split
  any_goals rfl
  exact State.loadEnded_pending _ _

theorem setControlCodesRule_pending : (setControlCodesRule p s).1.pending = s.pending := by
  unfold setControlCodesRule
  dsimp only
  repeat' split
  all_goals rfl

/-! ### Entries and marks (R13 to R20, R52 to R55) -/

theorem patchCellsRule_pending : (patchCellsRule p s).1.pending = s.pending := by
  unfold patchCellsRule
  repeat' split
  any_goals rfl
  exact State.tellLines_pending _ _ _

theorem retireRule_pending : (retireRule p s).1.pending = s.pending := by
  unfold retireRule
  repeat' split
  all_goals rfl

theorem setEntryRule_pending : (setEntryRule p s).1.pending = s.pending := by
  unfold setEntryRule
  repeat' split
  all_goals rfl

theorem addMarkRule_pending : (addMarkRule p s).1.pending = s.pending := by
  unfold addMarkRule
  dsimp only
  repeat' split
  any_goals rfl
  exact State.tellLines_pending _ _ _

theorem dropMarksRule_pending : (dropMarksRule p s).1.pending = s.pending := by
  unfold dropMarksRule
  dsimp only
  repeat' split
  any_goals rfl
  exact State.tellLines_pending _ _ _

/-! ### Sweeps and navigation (R71 to R73, R86, R94) -/

theorem sweepRule_pending : (sweepRule p s).1.pending = s.pending := by
  unfold sweepRule
  split
  · rfl
  · split
    · rfl
    · rw [State.setSweep_pending, State.setDir_pending]

theorem abortSweepRule_pending : (abortSweepRule p s).1.pending = s.pending := by
  unfold abortSweepRule
  split
  · rfl
  · simp

theorem showRule_pending : (showRule p s).1.pending = s.pending := by
  unfold showRule
  repeat' split
  any_goals rfl
  exact State.wantPage_pending _ _ _

theorem setNavigationRule_pending : (setNavigationRule p s).1.pending = s.pending := by
  unfold setNavigationRule
  repeat' split
  all_goals rfl

/-! ### Settings, the drive and the pin field (R105, R129, R148, R154, R177, R187) -/

theorem setStatusRule_pending : (setStatusRule p s).1.pending = s.pending := by
  unfold setStatusRule
  repeat' split
  any_goals rfl
  exact State.setStatus_pending _ _ _ _

theorem setCalendarRule_pending : (setCalendarRule p s).1.pending = s.pending := by
  unfold setCalendarRule
  dsimp only
  repeat' split
  all_goals rfl

theorem setDriveRule_pending : (setDriveRule p s).1.pending = s.pending := by
  unfold setDriveRule
  split
  · split
    · exact State.reform_pending _ _
    · rfl
  · rfl

theorem clearFaultsRule_pending : (clearFaultsRule p s).1.pending = s.pending := by
  unfold clearFaultsRule
  repeat' split
  any_goals rfl
  exact State.clearFaults_pending _ _

theorem setTouchRule_pending : (setTouchRule p s).1.pending = s.pending := by
  unfold setTouchRule
  split
  · split
    · exact State.setTouch_pending _ _
    · rfl
  · rfl

theorem setNoticeMaskRule_pending : (setNoticeMaskRule p s).1.pending = s.pending := by
  unfold setNoticeMaskRule
  repeat' split
  all_goals rfl

/-- R182 to R190: the rule of every command. -/
theorem commandOwner_pending {c : Instr} {code : Byte} {b : CommandBody} {rule : List Byte → State → State × Reply}
    (owned : commandOwner c = some (code, b, rule)) : (rule p s).1.pending = s.pending := by
  cases c with
  | openLoad b => cases owned; exact openLoadRule_pending p s
  | data b => cases owned; exact dataRule_pending p s
  | commit b => cases owned; exact commitRule_pending p s
  | cancelLoad b => cases owned; exact cancelLoadRule_pending p s
  | setControlCodes b => cases owned; exact setControlCodesRule_pending p s
  | queryEntry b => cases owned; rw [queryEntryRule_state]
  | listEntries b => cases owned; rw [listEntriesRule_state]
  | patchCells b => cases owned; exact patchCellsRule_pending p s
  | retire b => cases owned; exact retireRule_pending p s
  | setEntry b => cases owned; exact setEntryRule_pending p s
  | addMark b => cases owned; exact addMarkRule_pending p s
  | dropMarks b => cases owned; exact dropMarksRule_pending p s
  | sweep b => cases owned; exact sweepRule_pending p s
  | abortSweep b => cases owned; exact abortSweepRule_pending p s
  | showKey b => cases owned; exact showRule_pending p s
  | declineMiss b => cases owned; exact s.declineMiss_pending
  | setNavigation b => cases owned; exact setNavigationRule_pending p s
  | setStatus b => cases owned; exact setStatusRule_pending p s
  | setGlyphs b => cases owned; exact s.setGlyphs_pending _
  | setCalendar b => cases owned; exact setCalendarRule_pending p s
  | setDrive b => cases owned; exact setDriveRule_pending p s
  | pauseDrive b => cases owned; exact s.pauseDrive_pending
  | resumeDrive b => cases owned; exact s.resumeDrive_pending
  | survey b => cases owned; exact s.surveyAll_pending
  | clearFaults b => cases owned; exact clearFaultsRule_pending p s
  | readRow b => cases owned; rw [readRowRule_state]
  | setTouch b => cases owned; exact setTouchRule_pending p s
  | setNoticeMask b => cases owned; exact setNoticeMaskRule_pending p s
  | readFaults b | readStatus b | resetCommand b => cases owned; rfl
  | _ => cases owned

end
end Sys2Proof.Machine
end

section
/-! SUPPORT. Every row answers a next state with the waiting rows as they were: a command by its owner's rule, and each event
whether or not it can occur in the state it meets (log entries 2 and 3). -/

namespace Sys2Proof.Machine

/-- The outcome is a next state, in which the rows that waited in `s` still wait. -/
def State.AnswersNext (s : State) (o : Host.Outcome State Fault Refusal) : Prop := ∃ t, o = .next t ∧ t.pending = s.pending

variable {s t : State}

theorem State.AnswersNext.next (same : t.pending = s.pending) : s.AnswersNext (.next t) := ⟨t, rfl, same⟩

theorem State.AnswersNext.ite {o₁ o₂ : Host.Outcome State Fault Refusal} {c : Prop} [Decidable c] (yes : s.AnswersNext o₁)
    (no : s.AnswersNext o₂) : s.AnswersNext (if c then o₁ else o₂) := by
  split
  · exact yes
  · exact no

/-- R181 to R183: a command is taken, refused or turned away. -/
theorem State.AnswersNext.take {code : Byte} {b : CommandBody} {owner : List Byte → State → State × Reply}
    (rule : ∀ p, (owner p s).1.pending = s.pending) : s.AnswersNext (s.take code b owner) :=
  .ite (.ite (.next (rule b.payload)) (.next rfl)) (.next rfl)

theorem execWriteCommand_answersNext (shown : Byte) (bytes : List Byte) : s.AnswersNext (execWriteCommand shown bytes s) := by
  refine .ite (.next rfl) (.ite (.next rfl) (.ite (.next rfl) ?_))
  split
  · exact .next rfl
  · exact .next rfl

theorem execTimeout_answersNext (slot : Fin 2) : s.AnswersNext (execTimeout slot s) := by
  refine .ite (.next rfl) ?_
  split
  · exact .next rfl
  · exact .next (s.fatalStream_pending _ _ _ _)

theorem execSweepVisit_answersNext : s.AnswersNext (execSweepVisit s) := by
  refine .ite (.next rfl) ?_
  split
  · exact .next rfl
  · exact .next (by simp)

theorem execStrokeCompletion_answersNext (sensed : PinRow) : s.AnswersNext (execStrokeCompletion sensed s) := by
  refine .ite (.next rfl) ?_
  split
  · exact .next (by simp)
  · exact .next rfl

theorem exec_answersNext (c : Instr) (s : State) : s.AnswersNext (exec c s) := by
  rcases owned : commandOwner c with _ | ⟨code, b, rule⟩
  case some =>
    rw [exec_owned owned]
    exact .take fun p => commandOwner_pending p s owned
  have still : s.AnswersNext (.next s) := .next rfl
  cases c with
  | writeCommand shown bytes => exact execWriteCommand_answersNext shown bytes
  | readResponse n => exact .ite (.next rfl) (.ite (.next rfl) (.next rfl))
  | readNotice n => exact .ite (.next rfl) (.ite (.next rfl) (.next rfl))
  | statusOnlyTransaction code n => exact .ite (.next rfl) (.next rfl)
  | unknownCommand code b => exact .ite (.next rfl) still
  | powerOnReset | pinReset | resetPinAsserted => exact .next rfl
  | keySample prev next mark seek call => exact .ite still (.next (s.sample_pending _))
  | timeout slot => exact execTimeout_answersNext slot
  | sweepVisit => exact execSweepVisit_answersNext
  | blinkTimerExpiry => exact .ite still (.next (State.blinkChanged_pending _))
  | zoneReading zone count => exact .ite still (.next (s.zoneTakes_pending _ _))
  | holdTimerExpiry zone => exact .ite still (.next (s.zoneTakes_pending _ _))
  | refillUnitArrival => exact .ite still (.next (State.startIfCharged_pending _))
  | strokeStart => exact .ite still (.next s.startIfCharged_pending)
  | strokeCompletion sensed => exact execStrokeCompletion_answersNext sensed
  | supplyFall => exact .ite (.next rfl) (.next (State.supplyLost_pending _))
  | supplyRise => exact .ite (.next rfl) (.next (State.supplyBack_pending _))
  | _ => cases owned

end Sys2Proof.Machine

section
open Sys2Proof Sys2Proof.Machine

/-- Settles O2: a command goes on by its owner's rule, which leaves the waiting rows, and every event has a next state. -/
theorem everyRowAnswersANextState : Obligations.EveryRowAnswersANextState := exec_answersNext

end
end
